-- ==== Sys2Proof/Word.lean ====
section
/-! DEFINITION. The value types of 00_scope.md rule R9: bytes, frames, channel numbers and samples. The block moves bytes and has no word of a machine kind (R13, R14).

R9's `ChannelIn`, the channel operand of a request, is Lean's `Int` (R7, D2): unbounded, so that -1 and 8 can be
presented and rejected. -/

namespace Sys2Proof

/-- R9 `Byte`: an 8-bit unsigned value. -/
abbrev Byte := BitVec 8

/-- R9 `Channel`: a channel number after validation, 3 bits. -/
abbrev Channel := BitVec 3

/-- R9 `Config`: the 8-bit configuration value (R43). -/
abbrev ConfigByte := BitVec 8

/-- R9 `Sample`: a 12-bit unsigned value. -/
abbrev Sample := BitVec 12

/-- The 24-bit word view `W` of a frame (R28). -/
abbrev Word24 := BitVec 24

/-- R9 `Frame3`: an ordered triple of bytes, index 0 first (R27). A frame of another length cannot be written (R33). -/
structure Frame3 where
  b0 : Byte
  b1 : Byte
  b2 : Byte
  deriving DecidableEq, Repr

end Sys2Proof
end

