-- ==== Sys2Proof/Config.lean ====
section
/-! DEFINITION. The constants of 00_scope.md rule R6, and the open parameters of rule R7: those of the
transport, which no rule of the block reads, and the payload type of its failures, which no rule inspects. -/

namespace Sys2Proof.Config

/-- R6 `N_CHANNELS`. -/
def nChannels : Nat := 8

/-- R6 `CHANNEL_BITS`. -/
def channelBits : Nat := 3

/-- R6 `CONFIG_BITS`. -/
def configBits : Nat := 8

/-- R6 `START_BIT_POS`: the start bit's place in the configuration value. -/
def startBitPos : Nat := 4

/-- R6 `SGL_BIT_POS`: the single-ended mode selector's place in the configuration value; R6 `MODE` is hardwired. -/
def sglBitPos : Nat := 3

/-- R6 `FRAME_BYTES`, in each direction. -/
def frameBytes : Nat := 3

/-- R6 `FRAME_BITS`: the bit periods of one exchange. -/
def frameBits : Nat := 24

/-- R6 `SAMPLE_BITS`. -/
def sampleBits : Nat := 12

/-- R6 `EXCHANGES_PER_VALID_CALL` (C1). -/
def exchangesPerValidCall : Nat := 1

/-- R6 `EXCHANGES_PER_INVALID_CALL` (C1). -/
def exchangesPerInvalidCall : Nat := 0

/-- R6 `RETRIES`. -/
def retries : Nat := 0

/-- R7, D2: an RTL rendering's signed channel port is at least this wide. -/
def channelInMinWidth : Nat := 5

/-- Clock polarity and phase of the bus (R7 `SPI_MODE`). -/
structure SpiMode where
  polarity : Bool
  phase : Bool
  deriving DecidableEq, Repr, Inhabited

/-- R7 `SPI_MODE` (D8, U10): OPEN, a parameter of the transport. No rule of the block reads it (log 13), safe. -/
opaque spiMode : SpiMode

/-- R7 `SCLK_HZ` (D8, U10): OPEN, a parameter of the transport. No rule of the block reads it (log 13), safe. -/
opaque sclkHz : Nat

/-- The code of one payload of a transport failure: R57's `err <name>` names one. Free (log 1), safe. -/
opaque tErrFirst : Nat

/-- Which other codes are payloads of a transport failure. Free (log 1), safe. -/
opaque tErrMore : Nat → Bool

/-- The codes of all payloads of a transport failure: a set of which nothing is known but that it is not empty. -/
def isTErr (code : Nat) : Bool := code == tErrFirst || tErrMore code

end Sys2Proof.Config

namespace Sys2Proof

/-- R7 `TErr` (D5, U3), OPEN: the payloads of the machine's own transport, an opaque type. How many there are and which
they are is free: nothing proves even that two differ. DESIGN CHOICE (log 1), safe: a payload is held by its code, so
that State is plain data. Results, answers, events and READ_CHANNEL itself take the payload type as an argument `E`;
the machine is at `E = TErr`. -/
structure TErr where
  code : Nat
  isPayload : Config.isTErr code = true
  deriving DecidableEq, Repr

/-- The payload that exists whatever the set is. -/
def TErr.first : TErr := ⟨Config.tErrFirst, by simp [Config.isTErr]⟩

end Sys2Proof
end

