-- ==== Sys2Proof/Machine/Operands.lean ====
section
/-! DEFINITION. Fields and views of the operands: the word view of a frame (20_memory.md rule R28), the formats CFG8,
CMD24 and RSP24 (30_encoding.md rules R43, R45, R46) and the channel field (R47). Bit 0 is the least significant bit
of every value (R8). -/

namespace Sys2Proof

/-- `f[i]` (R9): byte i of a frame; an index above 2 does not exist. -/
def Frame3.byte (f : Frame3) (i : Fin 3) : Byte :=
  match i with
  | 0 => f.b0
  | 1 => f.b1
  | 2 => f.b2

/-- The frame's bytes, first byte first (R27). -/
def Frame3.bytes (f : Frame3) : List Byte := [f.b0, f.b1, f.b2]

/-- The 24-bit word view `W(f) = f[0] ++ f[1] ++ f[2]` (R28). -/
def Frame3.toWord (f : Frame3) : Word24 := f.b0 ++ f.b1 ++ f.b2

/-- The frame whose word view is `w`: byte 0 is `W[23:16]`, byte 1 `W[15:8]`, byte 2 `W[7:0]` (R28). -/
def Frame3.ofWord (w : Word24) : Frame3 :=
  ⟨w.extractLsb' 16 8, w.extractLsb' 8 8, w.extractLsb' 0 8⟩

/-- Format CFG8 (R43): match 0x18, mask 0xF8. -/
def isCfg8 (b : Byte) : Bool := b &&& 0xF8#8 == 0x18#8

/-- The channel field `CH` of a configuration value, bits 2:0 (R43). -/
def cfg8Channel (b : Byte) : Channel := b.extractLsb' 0 3

/-- Format CMD24 (R45): match 0x060000, mask 0xFE3FFF. -/
def isCmd24 (f : Frame3) : Bool := f.toWord &&& 0xFE3FFF#24 == 0x060000#24

/-- The channel field of a command frame, `W[16:14]` (R45). -/
def cmd24Channel (f : Frame3) : Channel := f.toWord.extractLsb' 14 3

/-- The sample field of a response frame, `W[11:0]` (R46). Every 24-bit response has one (R54). -/
def rsp24Sample (f : Frame3) : Sample := f.toWord.extractLsb' 0 12

/-- `c[2:0]` of a channel operand (R47, R62). -/
def channelBits (c : Int) : Channel := BitVec.ofInt 3 c

/-- The channel operand that a signed port of n bits presents (R7, R21, D2: `CHANNEL_IN_WIDTH` at least 5). -/
def channelOfPort {n : Nat} (v : BitVec n) : Int := v.toInt

end Sys2Proof
end

