-- ==== Sys2Proof/Machine/Functions.lean ====
section
/-! DEFINITION. The five pure operations as functions of their operands: 40_command_encode.md rules R59 to R62 and
41_response_decode.md rule R66, in the spec's own formulas. Integers are exact (R11, R64): each formula is computed on
natural numbers and narrowed once at its end. -/

namespace Sys2Proof.Machine

/-- `VALIDATE(c)` (R59): the check is on the whole integer. -/
def validate (c : Int) : Bool := decide (0 ≤ c) && decide (c ≤ 7)

/-- `BUILD_CONFIG(ch) = 0x10 | 0x08 | ch` (R60, R44). -/
def buildConfig (ch : Channel) : ConfigByte :=
  BitVec.ofNat 8 (0x10 ||| 0x08 ||| ch.toNat)

/-- `PACK_COMMAND(config)` (R61): `[(config >> 2) & 0x07, (config << 6) & 0xC0, 0x00]`, total on every byte. -/
def packCommand (config : ConfigByte) : Frame3 where
  b0 := BitVec.ofNat 8 ((config.toNat >>> 2) &&& 0x07)
  b1 := BitVec.ofNat 8 ((config.toNat <<< 6) &&& 0xC0)
  b2 := 0x00#8

/-- `ENCODE_COMMAND(c)` (R62): validate, build, pack; `none` is `raise InvalidChannel`. -/
def encodeCommand (c : Int) : Option Frame3 :=
  if validate c then some (packCommand (buildConfig (channelBits c))) else none

/-- `DECODE_RESPONSE(r) = ((r[1] & 0x0F) << 8) | r[2]` (R66), total on every frame. -/
def decodeResponse (r : Frame3) : Sample :=
  BitVec.ofNat 12 (((r.b1.toNat &&& 0x0F) <<< 8) ||| r.b2.toNat)

end Sys2Proof.Machine
end

