-- ==== Sys2Proof/Syntax.lean ====
section
/-! DEFINITION. The seven operations of spec/opcode_table.json (30_encoding.md rule R50), one constructor each, and
the form in which an operation's words are presented. -/

namespace Sys2Proof

/-- The operations of the block, one constructor per row of spec/opcode_table.json. -/
inductive Instr where
  /-- VALIDATE (R59). -/
  | validate (c : Int)
  /-- BUILD_CONFIG (R60). -/
  | buildConfig (ch : Channel)
  /-- PACK_COMMAND (R61). -/
  | packCommand (config : ConfigByte)
  /-- ENCODE_COMMAND (R62). -/
  | encodeCommand (c : Int)
  /-- EXCHANGE (R72). -/
  | exchange (cmd : Frame3)
  /-- DECODE_RESPONSE (R66). -/
  | decodeResponse (r : Frame3)
  /-- READ_CHANNEL (R73). -/
  | readChannel (c : Int)
  deriving DecidableEq, Repr

/-- What selects an operation. The block has no opcode field (R50): an operation is selected by a port event or by its
place in the transaction, and one name per row of R50's table stands for that. DESIGN CHOICE (log 7), safe. -/
inductive Selector where
  | validate
  | buildConfig
  | packCommand
  | encodeCommand
  | exchange
  | decodeResponse
  | readChannel
  deriving DecidableEq, Repr

/-- An operation presented by its words: what selects it, and the bytes of the format its row of the table gives,
first byte first (R27). -/
structure OpWord where
  sel : Selector
  bytes : List Byte
  deriving DecidableEq, Repr

/-- Why words are no operation's. -/
inductive DecodeError where
  /-- The operation has no words: VALIDATE "produces no frame" (R59). -/
  | noEncoding
  /-- Not as many bytes as the format has (R43, R56). -/
  | wrongLength
  /-- The byte is not of format CFG8 (R43). -/
  | notCfg8
  /-- The frame is not of format CMD24 (R45), so it is none of the eight frames of R51. -/
  | notCmd24
  deriving DecidableEq, Repr

end Sys2Proof
end

