-- ==== Sys2Proof/Machine/State.lean ====
section
/-! DEFINITION. The state of the block and of the agents at its ports, as plain data: 10_state.md rules R18 to R26.
The block has no registers, program counter, flags, control registers or memory (R14 to R17, R25, R38), and keeps
nothing from one transaction to the next (R13). -/

namespace Sys2Proof.Machine

/-- The transaction phase (R18). -/
inductive Phase where
  /-- No transaction is in flight. -/
  | idle
  /-- Command frame `cmd` has been handed to the transport and its answer has not come back. -/
  | exchanging (cmd : Frame3)
  deriving DecidableEq, Repr

/-- What the sticky fault record can hold (R19): its only value (R87). -/
inductive FaultRecord where
  | overlappingRequest
  deriving DecidableEq, Repr

/-- A transaction's result, one message on port RSP (R22), for transport failures with payloads in `E` (R7 `TErr`, D5). -/
inductive Result (E : Type) where
  | ok (v : Sample)
  | invalidChannel
  | transportError (e : E)
  deriving DecidableEq, Repr

/-- The transport's answer, one message on port XIN (R24, R71), for payloads in `E`. -/
inductive Answer (E : Type) where
  | frame (resp : Frame3)
  | error (e : E)
  deriving DecidableEq, Repr

/-- An event of the log (R20), for payloads in `E`. -/
inductive Event (E : Type) where
  | req (c : Int)
  | xfer (cmd : Frame3)
  | xferOk (resp : Frame3)
  | xferErr (e : E)
  | done (r : Result E)
  deriving DecidableEq, Repr

/-- A request the caller has still to send on REQ (R21). `early` says that the caller sends it without waiting for the
result of a transaction in flight, which it must not do (R102); a script's lines all wait (R57). -/
structure Request where
  channel : Int
  early : Bool
  deriving DecidableEq, Repr

/-- One operation invoked by itself, the model's own facility (log 4): by its words, or with its operands as values. -/
inductive Invocation where
  | words (w : OpWord)
  | operation (i : Instr)
  deriving DecidableEq, Repr

/-- What an operation invoked by itself ends with: `return v`, or `raise` of one of the two errors (R10), for
payloads in `E`. -/
inductive Returned (E : Type) where
  | bool (b : Bool)
  | config (b : ConfigByte)
  | frame (f : Frame3)
  | sample (v : Sample)
  | invalidChannel
  | transportError (e : E)
  deriving DecidableEq, Repr

/-- Who waits for the outstanding exchange's answer: the caller of a transaction, or the invoker of EXCHANGE by
itself (log 6). -/
inductive Awaiting where
  | caller
  | invoker
  deriving DecidableEq, Repr

/-- The machine. `phase`, `fault` and `log` are the spec's state (R18, R19, R20); `req`, `xin`, `xout` and `rsp` are
the messages at its four ports (R21 to R24): `req` and `xin` hold the choices the caller and the transport have still
to make, in order (log 2, log 3), `xout` and `rsp` the messages sent, in order (log 5). `invoked`, `awaiting` and
`returns` are the model's own (log 4, log 6). -/
structure State where
  phase : Phase
  fault : Option FaultRecord
  log : List (Event TErr)
  req : List Request
  xin : List (Answer TErr)
  xout : List Frame3
  rsp : List (Result TErr)
  invoked : Option Invocation
  awaiting : Awaiting
  returns : List (Returned TErr)
  deriving DecidableEq, Repr

/-- The state after reset: `phase = Idle`, `fault = none`, `log = []` (R26, R99). The ports are empty and nothing is
invoked: DESIGN CHOICE (log 2 to log 6). -/
def State.reset : State where
  phase := .idle
  fault := none
  log := []
  req := []
  xin := []
  xout := []
  rsp := []
  invoked := none
  awaiting := .caller
  returns := []

/-- Why a step stops without a next state. The spec has no step then: "No step is enabled" (R79). -/
inductive Fault where
  /-- Raised by `fetch` in `Idle` when the caller has no request left: the caller "may stop issuing requests in any
  `Idle` state" (R79). The end of a run, no error of the block. Safe: nothing is claimed of what follows. -/
  | noRequest
  /-- Raised by `fetch` in `Exchanging` when the transport never answers: stuck (R79, D11, U6). Safe. -/
  | noAnswer
  /-- Raised by `fetch`, EXCHANGE and READ_CHANNEL when the sticky fault is set: a faulted state is quiescent (R79).
  Safe. -/
  | overlappingRequest
  deriving DecidableEq, Repr

/-- Why an instruction has no meaning. -/
inductive Refusal where
  /-- Raised by `exec` for an instruction without a meaning. No arm uses it. Safe. -/
  | notModelled (mnemonic : String)
  /-- Raised by `step` when an operation's words are not of its format (R43, R45), or too long or short (R56). Safe. -/
  | undecodable (e : DecodeError)
  /-- Raised by EXCHANGE for a frame outside the eight of R51, which "the block never emits" (R53, U8). Safe. -/
  | reservedCommandFrame
  /-- Raised by `stepInstance` for an instance that does not exist (R96). Safe. -/
  | noSuchInstance
  deriving DecidableEq, Repr

end Sys2Proof.Machine
end

