-- ==== Sys2Proof/Machine/Ops.lean ====
section
/-! DEFINITION. The named operations over the state: events, ports, starting an exchange, delivering a result (which is
also how an error is raised, 60_exceptions.md rule R90), recording the fault, ending an operation invoked by itself. -/

namespace Sys2Proof.Machine

variable {E : Type}

/-- `emit E` (R10, R20): append an event to the log. -/
def State.emit (s : State) (e : Event TErr) : State :=
  { s with log := s.log ++ [e] }

/-- Start an exchange (R72, R75): `emit Xfer(cmd); XOUT <- cmd; phase <- Exchanging(cmd)`, for `who`. -/
def State.startExchange (s : State) (who : Awaiting) (cmd : Frame3) : State :=
  { s.emit (.xfer cmd) with
    xout := s.xout ++ [cmd]
    phase := .exchanging cmd
    awaiting := who }

/-- Deliver a transaction's result (R74, R76, R77): `emit Done(r); RSP <- r`, and `phase` becomes or stays `Idle`
(R90). The entry of both errors is this operation: the error becomes the result, nothing is saved, there is no vector
and no mode change (R90); there is nothing to return from (R91). -/
def State.deliver (s : State) (r : Result TErr) : State :=
  { s.emit (.done r) with
    rsp := s.rsp ++ [r]
    phase := .idle }

/-- Record the fault of a second request (R78, R87). No XOUT, no RSP, phase unchanged. -/
def State.recordOverlap (s : State) : State :=
  { s with fault := some .overlappingRequest }

/-- End an operation invoked by itself with what it returns or raises (R10). -/
def State.endWith (s : State) (v : Returned TErr) : State :=
  { s with returns := s.returns ++ [v] }

/-- No exchange is outstanding any more (R18: `Idle` holds nothing). -/
def State.settle (s : State) : State :=
  { s with phase := .idle, awaiting := .caller }

/-- The event of an answer (R20). -/
def Answer.event : Answer E → Event E
  | .frame resp => .xferOk resp
  | .error e => .xferErr e

/-- The result an answer gives a transaction (R73 steps 4 to 6, R76, R77). -/
def Answer.result : Answer E → Result E
  | .frame resp => .ok (decodeResponse resp)
  | .error e => .transportError e

/-- What EXCHANGE by itself ends with (R72): the frame itself, or the error raised. -/
def Answer.returned : Answer E → Returned E
  | .frame resp => .frame resp
  | .error e => .transportError e

/-- The transport's step: `Answer-Frame` (R76) or `Answer-Error` (R77) for a transaction; for EXCHANGE invoked by
itself, the rest of its pseudocode after `wait for XIN` (R72). -/
def State.answer (s : State) (a : Answer TErr) : State :=
  match s.awaiting with
  | .caller => (s.emit a.event).deliver a.result
  | .invoker => ((s.emit a.event).endWith a.returned).settle

end Sys2Proof.Machine
end

