-- ==== Sys2Proof/Machine/Command.lean ====
section
/-! DEFINITION. The command encoding family (40_command_encode.md): the meanings of VALIDATE, BUILD_CONFIG,
PACK_COMMAND and ENCODE_COMMAND invoked by themselves. Each is pure: "It reads no state, writes no state and takes no
modelled time", so all that is seen of it is what it ends with (log 4). -/

namespace Sys2Proof.Machine

/-- VALIDATE (R59). -/
def execValidate (c : Int) (s : State) : Host.Outcome State Fault Refusal :=
  .next (s.endWith (.bool (validate c)))

/-- BUILD_CONFIG (R60). -/
def execBuildConfig (ch : Channel) (s : State) : Host.Outcome State Fault Refusal :=
  .next (s.endWith (.config (buildConfig ch)))

/-- PACK_COMMAND (R61), total on every byte. -/
def execPackCommand (config : ConfigByte) (s : State) : Host.Outcome State Fault Refusal :=
  .next (s.endWith (.frame (packCommand config)))

/-- ENCODE_COMMAND (R62): the frame, or `raise InvalidChannel`. -/
def execEncodeCommand (c : Int) (s : State) : Host.Outcome State Fault Refusal :=
  match encodeCommand c with
  | some cmd => .next (s.endWith (.frame cmd))
  | none => .next (s.endWith .invalidChannel)

end Sys2Proof.Machine
end

