-- ==== Sys2Proof/Machine/Response.lean ====
section
/-! DEFINITION. The response decoding family (41_response_decode.md): the meaning of DECODE_RESPONSE invoked by itself,
pure and total. -/

namespace Sys2Proof.Machine

/-- DECODE_RESPONSE (R66), the value as it is (R70). -/
def execDecodeResponse (r : Frame3) (s : State) : Host.Outcome State Fault Refusal :=
  .next (s.endWith (.sample (decodeResponse r)))

end Sys2Proof.Machine
end

