-- ==== Sys2Proof/Machine/Transaction.lean ====
section
/-! DEFINITION. The exchange and read-channel family (42_read_channel.md): READ_CHANNEL as a function over a transport
(rule R73), and the meanings of EXCHANGE (R72) and READ_CHANNEL (R74, R75, R78) as steps. -/

namespace Sys2Proof.Machine

/-- `READ_CHANNEL(xfer, c)` (R73), with `xfer` the transport's `Exchange`, for payloads in `E`. -/
def readChannel {E : Type} (xfer : Frame3 → Answer E) (c : Int) : Result E :=
  if validate c then (xfer (packCommand (buildConfig (channelBits c)))).result else .invalidChannel

/-- The exchanges one call makes (R6, R37, C1). -/
def transportCalls (c : Int) : Nat :=
  if validate c then Config.exchangesPerValidCall else Config.exchangesPerInvalidCall

/-- EXCHANGE invoked by itself (R72), its XOUT step (R35); its XIN step is `State.answer`. A frame outside the eight is
never emitted (R53). While an exchange is outstanding, another on the same handle breaks the serialization duty, which
covers every exchange (R105, R102): DEDUCED (log 9), the fault of R87. A faulted state has no step (R79). -/
def execExchange (cmd : Frame3) (s : State) : Host.Outcome State Fault Refusal :=
  if isCmd24 cmd then
    match s.fault, s.phase with
    | some .overlappingRequest, _ => .fault .overlappingRequest
    | none, .idle => .next (s.startExchange .invoker cmd)
    | none, .exchanging _ => .next s.recordOverlap
  else .refused .reservedCommandFrame

/-- READ_CHANNEL, a message on REQ: `Request-Invalid` (R74), `Request-Valid` (R75), `Request-Overlap` (R78). The
channel is checked before anything else (R89). A faulted state has no step (R79). -/
def execReadChannel (c : Int) (s : State) : Host.Outcome State Fault Refusal :=
  match s.fault, s.phase with
  | some .overlappingRequest, _ => .fault .overlappingRequest
  | none, .idle =>
    match encodeCommand c with
    | none => .next ((s.emit (.req c)).deliver .invalidChannel)
    | some cmd => .next ((s.emit (.req c)).startExchange .caller cmd)
  | none, .exchanging _ => .next (s.emit (.req c)).recordOverlap

end Sys2Proof.Machine
end

