-- ==== Sys2Proof/Machine/Dispatch.lean ====
section
/-! DEFINITION. One arm per operation of spec/opcode_table.json, in the table's order of families. -/

namespace Sys2Proof.Machine

def exec (i : Instr) (s : State) : Host.Outcome State Fault Refusal :=
  match i with
  | .validate c => Sys2Proof.Machine.execValidate c s
  | .buildConfig ch => Sys2Proof.Machine.execBuildConfig ch s
  | .packCommand config => Sys2Proof.Machine.execPackCommand config s
  | .encodeCommand c => Sys2Proof.Machine.execEncodeCommand c s
  | .exchange cmd => Sys2Proof.Machine.execExchange cmd s
  | .decodeResponse r => Sys2Proof.Machine.execDecodeResponse r s
  | .readChannel c => Sys2Proof.Machine.execReadChannel c s

end Sys2Proof.Machine
end

