-- ==== Sys2Proof/WellFormed.lean ====
section
/-! DEFINITION. Which operations are well formed (their operand is one the rule admits) and which have words (the
opcode table's formats can present them). -/

namespace Sys2Proof

/-- The operand is one the operation's rule admits. Types say it for all but EXCHANGE, whose operand is a command
frame, one of the eight of R51 (R72, R53). -/
def Instr.wellFormed : Instr → Bool
  | .validate _ => true
  | .buildConfig _ => true
  | .packCommand _ => true
  | .encodeCommand _ => true
  | .exchange cmd => isCmd24 cmd
  | .decodeResponse _ => true
  | .readChannel _ => true

/-- The operation has words in the format of its row of the table. VALIDATE has none (R59); a channel outside 0..7 has
no command frame (R52, R57); PACK_COMMAND's row is the frame of a configuration value, so a byte that is none has no
words although the operation is total on it (R61). -/
def Instr.hasWords : Instr → Bool
  | .validate _ => false
  | .buildConfig _ => true
  | .packCommand config => isCfg8 config
  | .encodeCommand c => Machine.validate c
  | .exchange cmd => isCmd24 cmd
  | .decodeResponse _ => true
  | .readChannel c => Machine.validate c

end Sys2Proof
end

