-- ==== Sys2Proof/Decode.lean ====
section
/-! DEFINITION. The decoder, total on any bytes and rejecting by name, and after it the encoder, both from the formats
of 30_encoding.md rules R43, R45, R46 and the rows of spec/opcode_table.json. -/

namespace Sys2Proof

/-- Read a 3-byte frame and hand it on if it is of format CMD24 (R45), else reject by name. -/
def decodeCmd24 (bytes : List Byte) (k : Frame3 → Instr) : Except DecodeError Instr :=
  match bytes with
  | [b0, b1, b2] => if isCmd24 ⟨b0, b1, b2⟩ then .ok (k ⟨b0, b1, b2⟩) else .error .notCmd24
  | _ => .error .wrongLength

/-- Read a configuration byte of format CFG8 (R43), else reject by name. -/
def decodeCfg8 (bytes : List Byte) : Except DecodeError Instr :=
  match bytes with
  | [b] => if isCfg8 b then .ok (.buildConfig (cfg8Channel b)) else .error .notCfg8
  | _ => .error .wrongLength

/-- Read a response frame of format RSP24 (R46): every 3-byte frame is one (R54). -/
def decodeRsp24 (bytes : List Byte) : Except DecodeError Instr :=
  match bytes with
  | [b0, b1, b2] => .ok (.decodeResponse ⟨b0, b1, b2⟩)
  | _ => .error .wrongLength

/-- The operation an operation's words present. CMD24's channel field gives the channel of ENCODE_COMMAND and of a
`read c` line (R57), and PACK_COMMAND's configuration value (R44). -/
def decode (w : OpWord) : Except DecodeError Instr :=
  match w.sel with
  | .validate => .error .noEncoding
  | .buildConfig => decodeCfg8 w.bytes
  | .packCommand => decodeCmd24 w.bytes fun f => .packCommand (0b00011#5 ++ cmd24Channel f)
  | .encodeCommand => decodeCmd24 w.bytes fun f => .encodeCommand (cmd24Channel f).toNat
  | .exchange => decodeCmd24 w.bytes fun f => .exchange f
  | .decodeResponse => decodeRsp24 w.bytes
  | .readChannel => decodeCmd24 w.bytes fun f => .readChannel (cmd24Channel f).toNat

/-- The words of an operation that has words (`Instr.hasWords`): the value or frame its rule gives, in the format of
its row of the table. -/
def encode (i : Instr) : Option OpWord :=
  match i with
  | .validate _ => none
  | .buildConfig ch => some ⟨.buildConfig, [Machine.buildConfig ch]⟩
  | .packCommand config =>
    if isCfg8 config then some ⟨.packCommand, (Machine.packCommand config).bytes⟩ else none
  | .encodeCommand c => (Machine.encodeCommand c).map fun f => ⟨.encodeCommand, f.bytes⟩
  | .exchange cmd => if isCmd24 cmd then some ⟨.exchange, cmd.bytes⟩ else none
  | .decodeResponse r => some ⟨.decodeResponse, r.bytes⟩
  | .readChannel c => (Machine.encodeCommand c).map fun f => ⟨.readChannel, f.bytes⟩

/-- The `n` bytes of a number, most significant byte first: byte 0 of a frame is `W[23:16]` (R28). -/
def bytesOfWord : Nat → Nat → List Byte
  | 0, _ => []
  | n + 1, w => BitVec.ofNat 8 (w >>> (8 * n)) :: bytesOfWord n w

/-- The selector for a word of the opcode table given without one. DESIGN CHOICE (log 7), safe: a byte is CFG8, the
format of BUILD_CONFIG; a frame of format CMD24 is ENCODE_COMMAND's, whose format is CMD24 itself (PACK_COMMAND,
EXCHANGE and READ_CHANNEL have the same words); any other frame can only be a response (R53), DECODE_RESPONSE's. -/
def tableSelector (bytes : List Byte) : Selector :=
  match bytes with
  | [_] => .buildConfig
  | [b0, b1, b2] => if isCmd24 ⟨b0, b1, b2⟩ then .encodeCommand else .decodeResponse
  | _ => .decodeResponse

/-- A word of the opcode table as an operation's words: the table numbers a frame's bits in its word view (R28). -/
def tableOpWord (nbits w : Nat) : OpWord :=
  let bytes := bytesOfWord ((nbits + 7) / 8) w
  ⟨tableSelector bytes, bytes⟩

/-- The instruction the decoder reads from a word of the opcode table; `none` where it rejects. -/
def decodeTableWord (nbits w : Nat) : Option Instr :=
  match decode (tableOpWord nbits w) with
  | .ok i => some i
  | .error _ => none

end Sys2Proof
end

