-- ==== Sys2Proof/Machine/Fetch.lean ====
section
/-! DEFINITION. Which step is next: the selection of an operation by port events (30_encoding.md rule R50) and by the
state (42_read_channel.md rule R79). -/

namespace Sys2Proof.Machine

/-- What the state selects. -/
inductive Fetched where
  /-- Run an operation in the state given. -/
  | run (i : Instr) (s : State)
  /-- The transport answers, in the state given (R76, R77). -/
  | answer (a : Answer TErr) (s : State)
  /-- No step is enabled (R79). -/
  | stop (f : Fault)
  /-- The words invoked are no operation's. -/
  | reject (e : DecodeError)
  deriving DecidableEq, Repr

/-- The operation an invocation presents. -/
def Invocation.instr : Invocation → Except DecodeError Instr
  | .words w => decode w
  | .operation i => .ok i

/-- The next request is one the caller sends without waiting (R78). -/
def State.nextIsEarly (s : State) : Bool :=
  match s.req with
  | r :: _ => r.early
  | [] => false

/-- The step the caller takes: its next request reaches REQ. -/
def State.fetchRequest (s : State) (f : Fault) : Fetched :=
  match s.req with
  | r :: rest => .run (.readChannel r.channel) { s with req := rest }
  | [] => .stop f

/-- The step the transport takes: its next answer reaches XIN. -/
def State.fetchAnswer (s : State) : Fetched :=
  match s.xin with
  | a :: rest => .answer a { s with xin := rest }
  | [] => .stop .noAnswer

/-- The step that is next (R79). An operation invoked by itself goes first (log 4). A faulted state has no step. In
`Idle` the caller's next request is taken, and an answer of the transport never is. In `Exchanging` a request that does
not wait is taken (R78), else the transport's answer (log 3). -/
def State.fetch (s : State) : Fetched :=
  match s.invoked with
  | some inv =>
    match inv.instr with
    | .ok i => .run i { s with invoked := none }
    | .error e => .reject e
  | none =>
    match s.fault, s.phase with
    | some .overlappingRequest, _ => .stop .overlappingRequest
    | none, .idle => s.fetchRequest .noRequest
    | none, .exchanging _ => if s.nextIsEarly then s.fetchRequest .noAnswer else s.fetchAnswer

end Sys2Proof.Machine
end

