-- ==== Sys2Proof/Machine/Step.lean ====
section
/-! DEFINITION. One step of the machine: 42_read_channel.md section 3. -/

namespace Sys2Proof.Machine

/-- One step: the operation or answer that `State.fetch` selects. -/
def step (s : State) : Host.Outcome State Fault Refusal :=
  match s.fetch with
  | .run i s' => exec i s'
  | .answer a s' => .next (s'.answer a)
  | .stop f => .fault f
  | .reject e => .refused (.undecodable e)

/-- `s` with a word of the opcode table invoked: the next step runs the operation it presents (log 4). -/
def State.withFetchWord (s : State) (nbits w : Nat) : State :=
  { s with invoked := some (.words (tableOpWord nbits w)) }

end Sys2Proof.Machine
end

