-- ==== Sys2Proof/Machine/Flags.lean ====
section
/-! DEFINITION. The block has no status flags or condition codes (10_state.md rule R16): success or failure is carried
by the result alone (R22). This file holds the result's numeric tag, the one encoding of a status the spec gives. -/

namespace Sys2Proof.Machine

/-- `RESULT_TAG` (R7, R84, D4): OK = 0, INVALID_CHANNEL = 1, TRANSPORT_ERROR = 2. -/
def Result.tag {E : Type} : Result E → Nat
  | .ok _ => 0
  | .invalidChannel => 1
  | .transportError _ => 2

end Sys2Proof.Machine
end

