-- ==== Sys2Proof/Machine/Instances.lean ====
section
/-! DEFINITION. Several blocks, each with its own transport handle: independent machines, each with its own state
(60_exceptions.md rule R96, D26). -/

namespace Sys2Proof.Machine

/-- A step of instance k among several. -/
def stepInstance (k : Nat) (blocks : List State) : Host.Outcome (List State) Fault Refusal :=
  match blocks[k]? with
  | none => .refused .noSuchInstance
  | some s =>
    match step s with
    | .next s' => .next (blocks.set k s')
    | .fault f => .fault f
    | .refused r => .refused r

end Sys2Proof.Machine
end

