-- ==== Sys2Proof/Machine/Relation.lean ====
section
/-! DEFINITION. The step relation exactly as 42_read_channel.md section 3 writes it (rules R74 to R78), over the spec's
own state `S = (phase, fault, log)` and the messages sent on XOUT and RSP. The machine's `step` is held against it. -/

namespace Sys2Proof.Machine

/-- The spec's state (R18, R19, R20) with the messages sent (R22, R23). -/
structure Block (E : Type) where
  phase : Phase
  fault : Option FaultRecord
  log : List (Event E)
  xout : List Frame3
  rsp : List (Result E)
  deriving DecidableEq, Repr

/-- The part of the machine that the step relation speaks of. -/
def State.block (s : State) : Block TErr := ⟨s.phase, s.fault, s.log, s.xout, s.rsp⟩

/-- A message that reaches the block: a request on REQ, or an answer on XIN. -/
inductive Message (E : Type) where
  | req (c : Int)
  | xin (a : Answer E)
  deriving DecidableEq, Repr

/-- The five steps, for payloads in `E` (R7, D5); "No other step exists". -/
inductive StepRule {E : Type} : Message E → Block E → Block E → Prop where
  /-- R74 `Request-Invalid`. -/
  | requestInvalid (b : Block E) (c : Int) : b.fault = none → b.phase = .idle → validate c = false →
      StepRule (.req c) b
        { b with log := b.log ++ [.req c, .done .invalidChannel], rsp := b.rsp ++ [.invalidChannel] }
  /-- R75 `Request-Valid`. -/
  | requestValid (b : Block E) (c : Int) (cmd : Frame3) : b.fault = none → b.phase = .idle →
      validate c = true → encodeCommand c = some cmd →
      StepRule (.req c) b
        { b with log := b.log ++ [.req c, .xfer cmd], xout := b.xout ++ [cmd], phase := .exchanging cmd }
  /-- R76 `Answer-Frame`. -/
  | answerFrame (b : Block E) (cmd resp : Frame3) : b.fault = none → b.phase = .exchanging cmd →
      StepRule (.xin (.frame resp)) b
        { b with log := b.log ++ [.xferOk resp, .done (.ok (decodeResponse resp))],
                 rsp := b.rsp ++ [.ok (decodeResponse resp)], phase := .idle }
  /-- R77 `Answer-Error`. -/
  | answerError (b : Block E) (cmd : Frame3) (e : E) : b.fault = none → b.phase = .exchanging cmd →
      StepRule (.xin (.error e)) b
        { b with log := b.log ++ [.xferErr e, .done (.transportError e)],
                 rsp := b.rsp ++ [.transportError e], phase := .idle }
  /-- R78 `Request-Overlap`. -/
  | requestOverlap (b : Block E) (cmd : Frame3) (c : Int) : b.fault = none → b.phase = .exchanging cmd →
      StepRule (.req c) b { b with log := b.log ++ [.req c], fault := some .overlappingRequest }

end Sys2Proof.Machine
end

