-- ==== Sys2Proof/Machine/Script.lean ====
section
/-! DEFINITION. Transaction scripts (30_encoding.md rules R57 and R58, D23): a program of `read` lines and a transport
script of answers, how one is loaded into the machine, how it runs to its end, and its end state. -/

namespace Sys2Proof.Machine

/-- A transaction script (R57). -/
structure Script (E : Type) where
  /-- The `read <int>` lines, in order. -/
  program : List Int
  /-- The answers `ok [..]` or `err <name>`, in order, one per exchange. -/
  transport : List (Answer E)
  deriving DecidableEq, Repr

/-- The request of a `read` line: it waits for the result before it (R57). One line is one READ_CHANNEL (R58). -/
def readLine (c : Int) : Request := ⟨c, false⟩

/-- A state with the script's lines on the caller's side and its answers on the transport's. -/
def State.load (s : State) (p : Script TErr) : State :=
  { s with req := p.program.map readLine, xin := p.transport }

/-- The encoding of a `read c` line: its command frame, and none for an invalid c (R57). -/
def lineEncoding (c : Int) : Option Frame3 := encodeCommand c

/-- The state in which a run of at most `n` steps stops: where no step is enabled it stays. -/
def runToStop : Nat → State → State
  | 0, s => s
  | n + 1, s =>
    match step s with
    | .next s' => runToStop n s'
    | .fault _ => s
    | .refused _ => s

/-- The end state of a script (R57). -/
structure EndState (E : Type) where
  results : List (Result E)
  frames : List Frame3
  phase : Phase
  fault : Option FaultRecord
  deriving DecidableEq, Repr

/-- The end state that a state shows (R57). -/
def State.endState (s : State) : EndState TErr := ⟨s.rsp, s.xout, s.phase, s.fault⟩

/-- The end state a script must have, by READ_CHANNEL as a function (R73), line by line: an invalid channel consumes no
answer, a valid one consumes one, and where the answers run out the run is stuck in `Exchanging` (R57, D11). -/
def expectedEnd {E : Type} (results : List (Result E)) (frames : List Frame3) : List Int → List (Answer E) → EndState E
  | [], _ => ⟨results, frames, .idle, none⟩
  | c :: cs, answers =>
    match encodeCommand c, answers with
    | none, _ => expectedEnd (results ++ [.invalidChannel]) frames cs answers
    | some cmd, [] => ⟨results, frames ++ [cmd], .exchanging cmd, none⟩
    | some cmd, a :: rest =>
      expectedEnd (results ++ [readChannel (fun _ => a) c]) (frames ++ [cmd]) cs rest

end Sys2Proof.Machine
end

