-- ==== Sys2Proof/Machine/Wire.lean ====
section
/-! DEFINITION. The bit-period view of one exchange: 20_memory.md rules R29 and R30 and the timeline of
70_reset_and_hazards.md rule R108 (D6, D24). No step depends on it (R106); no byte-level rule does (R29). -/

namespace Sys2Proof.Machine

/-- The bit of a frame that bit period k carries: `W[23 - k]` (R29). -/
def wireBit (f : Frame3) (k : Fin 24) : Bool := f.toWord.getLsbD (23 - k.val)

/-- One bit period of an exchange: the bit sent and the bit captured in the same period (R30). -/
structure BitPeriod where
  sent : Bool
  captured : Bool
  deriving DecidableEq, Repr

/-- The 24 bit periods of an exchange of `out` for `resp`, in time order (R30, R34). -/
def bitPeriods (out resp : Frame3) : List BitPeriod :=
  List.ofFn fun k : Fin 24 => ⟨wireBit out k, wireBit resp k⟩

/-- The word that a shift register holds after taking bits most significant first (R29). -/
def assemble (bits : List Bool) : Word24 :=
  bits.foldl (fun acc b => (acc <<< 1) ||| (BitVec.ofBool b).setWidth 24) 0#24

/-- What the block sends in a bit period (R108). -/
inductive Sends where
  | zero
  | start
  | sgl
  | d2
  | d1
  | d0
  deriving DecidableEq, Repr

/-- R108's column "block sends": the command occupies periods 5 to 9. -/
def sendsIn (k : Fin 24) : Sends :=
  match k.val with
  | 5 => .start
  | 6 => .sgl
  | 7 => .d2
  | 8 => .d1
  | 9 => .d0
  | _ => .zero

/-- The bit it stands for, for channel `ch` (R108). -/
def Sends.bit (ch : Channel) : Sends → Bool
  | .zero => false
  | .start => true
  | .sgl => true
  | .d2 => ch.getLsbD 2
  | .d1 => ch.getLsbD 1
  | .d0 => ch.getLsbD 0

/-- R108's column "block uses": the sample bit received in a period, `none` where the period is ignored. -/
def sampleBitIn (k : Fin 24) : Option (Fin 12) :=
  if 12 ≤ k.val then some ⟨(23 - k.val) % 12, Nat.mod_lt _ (by decide)⟩ else none

end Sys2Proof.Machine
end

