-- ==== Sys2Proof/Safety.lean ====
section
/-! DEFINITION. What claims are stated in: the shape of the log (20_memory.md rule R39), final states
(42_read_channel.md rule R80), the invariants of the machine, and the comparison of runs that differ only in what the
block never looks at. -/

namespace Sys2Proof.Machine

variable {E E' : Type}

/-! ## The shape of the log -/

/-- Where a log stands between its events. -/
inductive LogPhase (E : Type) where
  /-- Every request so far has its result. -/
  | between
  /-- A request has arrived and nothing has followed. -/
  | requested (c : Int)
  /-- The exchange of `cmd` has started. -/
  | exchanging (cmd : Frame3)
  /-- The answer has come, and `r` is the result due. -/
  | answered (r : Result E)
  /-- Another request has arrived during the exchange of `cmd`. -/
  | overlapped (cmd : Frame3)
  deriving DecidableEq, Repr

/-- One more event: each transaction is `Req(c)` and then either `Done(InvalidChannel)` for an invalid c, or one
`Xfer` of c's frame, one answer and the answer's result (R37, R39, R73, R82). `none`: no run has such a log. -/
def logNext [DecidableEq E] : LogPhase E → Event E → Option (LogPhase E)
  | .between, .req c => some (.requested c)
  | .requested c, .done .invalidChannel => if validate c then none else some .between
  | .requested c, .xfer cmd => if encodeCommand c = some cmd then some (.exchanging cmd) else none
  | .exchanging _, .xferOk resp => some (.answered (.ok (decodeResponse resp)))
  | .exchanging _, .xferErr e => some (.answered (.transportError e))
  | .exchanging cmd, .req _ => some (.overlapped cmd)
  | .answered r, .done r' => if r = r' then some .between else none
  | _, _ => none

/-- Where a whole log stands. -/
def logPhase [DecidableEq E] (log : List (Event E)) : Option (LogPhase E) := log.foldlM logNext .between

/-- Where the log of a state must stand, by its fault and phase (R18, R19). -/
def dueLogPhase : Option FaultRecord → Phase → Option (LogPhase E)
  | none, .idle => some .between
  | none, .exchanging cmd => some (.exchanging cmd)
  | some .overlappingRequest, .exchanging cmd => some (.overlapped cmd)
  | some .overlappingRequest, .idle => none

/-! ## Invariants -/

/-- The state of a run of the block alone (nothing invoked by itself, log 4), whose log has the shape of R39 and stands
where its fault and phase say. -/
def State.Serial (s : State) : Prop :=
  s.invoked = none ∧ s.awaiting = .caller ∧
    ∃ p, dueLogPhase s.fault s.phase = some p ∧ logPhase s.log = some p

/-- The frame an event says went out on XOUT. -/
def Event.sent : Event E → Option Frame3
  | .xfer cmd => some cmd
  | _ => none

/-- The result an event says went out on RSP. -/
def Event.delivered : Event E → Option (Result E)
  | .done r => some r
  | _ => none

/-- The channel an event says was requested. -/
def Event.requested : Event E → Option Int
  | .req c => some c
  | _ => none

/-- The messages sent are those the log names, in its order (R20, R22, R23). -/
def State.PortsAgree (s : State) : Prop :=
  s.xout = s.log.filterMap Event.sent ∧ s.rsp = s.log.filterMap Event.delivered

/-- Only the eight command frames have been emitted (R51, R53), and the frame in flight is the last one emitted. -/
def State.CommandsOnly (s : State) : Prop :=
  (∀ f ∈ s.xout, isCmd24 f = true) ∧ ∀ cmd, s.phase = .exchanging cmd → s.xout.getLast? = some cmd

/-- In `Idle` nothing is held: no one waits for an answer but the next caller (R18, log 6). -/
def State.IdleHoldsNothing (s : State) : Prop := s.phase = .idle → s.awaiting = .caller

/-! ## Final states -/

/-- The event is a request. -/
def Event.isReq (e : Event E) : Bool := e.requested.isSome

/-- The events after a request that belong to it: those before the next request. -/
def eventsOf (rest : List (Event E)) : List (Event E) := rest.takeWhile fun e => !e.isReq

/-- How many exchanges the events name. -/
def countXfer (l : List (Event E)) : Nat := (l.filterMap Event.sent).length

/-- R80's last two clauses: every valid request is followed by exactly one `Xfer` and one `Done`, every invalid one by
exactly one `Done(InvalidChannel)` and no `Xfer`. -/
def allSettled : List (Event E) → Prop
  | [] => True
  | .req c :: rest =>
    (if validate c then
      countXfer (eventsOf rest) = 1 ∧ ((eventsOf rest).filterMap Event.delivered).length = 1
    else
      countXfer (eventsOf rest) = 0 ∧ (eventsOf rest).filterMap Event.delivered = [.invalidChannel]) ∧
    allSettled rest
  | _ :: rest => allSettled rest

/-- A final state (R80). -/
def State.Final (s : State) : Prop :=
  s.fault = none ∧ s.phase = .idle ∧ allSettled s.log

/-! ## Comparing runs -/

/-- Change the next state of an outcome. -/
def mapNext (f : State → State) :
    Host.Outcome State Fault Refusal → Host.Outcome State Fault Refusal
  | .next s => .next (f s)
  | .fault r => .fault r
  | .refused r => .refused r

/-- The same state with nothing of the past in it: no log, no messages sent, no values returned. -/
def State.forget (s : State) : State := { s with log := [], xout := [], rsp := [], returns := [] }

/-- The state `s` with the past of `h` put before its own. -/
def State.after (h s : State) : State :=
  { s with
    log := h.log ++ s.log
    xout := h.xout ++ s.xout
    rsp := h.rsp ++ s.rsp
    returns := h.returns ++ s.returns }

/-- An answer with its failure's payload renamed. -/
def Answer.rename (f : E → E') : Answer E → Answer E'
  | .frame resp => .frame resp
  | .error e => .error (f e)

/-- A result with its failure's payload renamed. -/
def Result.rename (f : E → E') : Result E → Result E'
  | .ok v => .ok v
  | .invalidChannel => .invalidChannel
  | .transportError e => .transportError (f e)

/-- A returned value with its failure's payload renamed. -/
def Returned.rename (f : E → E') : Returned E → Returned E'
  | .transportError e => .transportError (f e)
  | .bool b => .bool b
  | .config b => .config b
  | .frame r => .frame r
  | .sample v => .sample v
  | .invalidChannel => .invalidChannel

/-- An event with its failure's payload renamed. -/
def Event.rename (f : E → E') : Event E → Event E'
  | .req c => .req c
  | .xfer cmd => .xfer cmd
  | .xferOk resp => .xferOk resp
  | .xferErr e => .xferErr (f e)
  | .done r => .done (r.rename f)

/-- A message with its failure's payload renamed. -/
def Message.rename (f : E → E') : Message E → Message E'
  | .req c => .req c
  | .xin a => .xin (a.rename f)

/-- The spec's state with every failure's payload renamed. -/
def Block.rename (f : E → E') (b : Block E) : Block E' where
  phase := b.phase
  fault := b.fault
  log := b.log.map (Event.rename f)
  xout := b.xout
  rsp := b.rsp.map (Result.rename f)

/-- A state with every failure's payload renamed. -/
def State.rename (f : TErr → TErr) (s : State) : State :=
  { s with
    log := s.log.map (Event.rename f)
    xin := s.xin.map (Answer.rename f)
    rsp := s.rsp.map (Result.rename f)
    returns := s.returns.map (Returned.rename f) }

/-- Two frames carry the same sample bits: they differ only in the bits that RSP24 ignores (R46, R68). -/
def sameSampleBits (r r' : Frame3) : Prop := r.b1 &&& 0x0F#8 = r'.b1 &&& 0x0F#8 ∧ r.b2 = r'.b2

/-- Two answers the caller cannot tell apart: failures with the same payload, or frames with the same sample bits. -/
def Answer.alike : Answer E → Answer E → Prop
  | .frame r, .frame r' => sameSampleBits r r'
  | .error e, .error e' => e = e'
  | _, _ => False

/-- Two states that agree in all but the ignored bits of the answers to come and the log that records answers (U1). -/
def State.alike (s t : State) : Prop :=
  s.phase = t.phase ∧ s.fault = t.fault ∧ s.req = t.req ∧ List.Forall₂ Answer.alike s.xin t.xin ∧
    s.xout = t.xout ∧ s.rsp = t.rsp ∧ s.invoked = t.invoked ∧ s.awaiting = t.awaiting

end Sys2Proof.Machine
end

