-- ==== Sys2Proof/Certificates/Slice0/Obligations.lean ====
section
/-! DEFINITION. The statements for the provers, from the numbered rules of spec/. A next state is written out whole, so
each result statement is its frame too: every field not named is as it was. -/

open Sys2Proof Sys2Proof.Machine

/-! ## Reset and parameters -/

/-- R99: reset leaves `Idle`, no fault, an empty log, and the first steps are the caller's requests: with a request
there is a step, whose first event is that request, and without one there is none, whatever the transport holds. That the
requests to come are a list is the model's choice (log 3); the named stop `noRequest`, where the spec only has no step
enabled, is too (log 10). -/
def Obligations.ResetState : Prop :=
  State.reset.phase = .idle ∧ State.reset.fault = none ∧ State.reset.log = [] ∧
    (∀ (c : Int) (early : Bool) (rest : List Request) (answers : List (Answer TErr)), ∃ t,
      step { State.reset with req := ⟨c, early⟩ :: rest, xin := answers } = .next t ∧
        t.log.head? = some (.req c)) ∧
    ∀ answers, step { State.reset with xin := answers } = .fault .noRequest

/-- The reset state meets every invariant stated below, and is final. Rests on the model's choices of log 2 to log 6
(the ports are empty and nothing is invoked). -/
def Obligations.ResetMeetsInvariants : Prop :=
  State.reset.Serial ∧ State.reset.PortsAgree ∧ State.reset.CommandsOnly ∧ State.reset.IdleHoldsNothing ∧
    State.reset.Final

/-- R6's constants are what the operations do. -/
def Obligations.ParametersGovernTheOperations : Prop :=
  (∀ c : Int, validate c = true ↔ 0 ≤ c ∧ c < (Config.nChannels : Int)) ∧
    2 ^ Config.channelBits = Config.nChannels ∧
    (∀ ch, (buildConfig ch).toNat < 2 ^ Config.configBits ∧
      (buildConfig ch).getLsbD Config.startBitPos = true ∧ (buildConfig ch).getLsbD Config.sglBitPos = true) ∧
    (∀ f : Frame3, f.bytes.length = Config.frameBytes) ∧
    (∀ out resp, (bitPeriods out resp).length = Config.frameBits) ∧
    (∀ r, (decodeResponse r).toNat < 2 ^ Config.sampleBits) ∧
    (∀ c : Int, transportCalls c = if 0 ≤ c ∧ c ≤ 7 then 1 else 0) ∧
    ∀ (s : State) (a : Answer TErr), (s.answer a).xout.length = s.xout.length + Config.retries

/-! ## The pure operations

The place where a pure operation's value stands, `returns`, is the model's choice (log 4). -/

/-- R59: VALIDATE ends with true exactly for 0 to 7, on the whole integer, and changes nothing else. -/
def Obligations.ValidateResult : Prop :=
  ∀ (c : Int) (s : State), ∃ b,
    exec (.validate c) s = .next { s with returns := s.returns ++ [.bool b] } ∧
      (b = true ↔ 0 ≤ c ∧ c ≤ 7)

/-- R60, R44: BUILD_CONFIG ends with `0x10 | 0x08 | ch = 0x18 | ch`, between 0x18 and 0x1F, bits 7:5 zero, bits 4 and 3
set, bits 2:0 the channel. -/
def Obligations.BuildConfigResult : Prop :=
  ∀ (ch : Channel) (s : State), ∃ b : ConfigByte,
    exec (.buildConfig ch) s = .next { s with returns := s.returns ++ [.config b] } ∧
      b = 0x10#8 ||| 0x08#8 ||| ch.setWidth 8 ∧ b = 0x18#8 ||| ch.setWidth 8 ∧ b = 0b00011#5 ++ ch ∧
      0x18 ≤ b.toNat ∧ b.toNat ≤ 0x1F

/-- R43: format CFG8, match 0x18 and mask 0xF8, is exactly the configuration values, and bits 2:0 give the channel. -/
def Obligations.Cfg8IsTheConfigurationValues : Prop :=
  (∀ b : ConfigByte, b &&& 0xF8#8 = 0x18#8 ↔ ∃ ch, buildConfig ch = b) ∧
    ∀ ch, (buildConfig ch).extractLsb' 0 3 = ch

/-- R61, R48: PACK_COMMAND ends with the source's form and the equivalent slice form, for every byte. -/
def Obligations.PackCommandResult : Prop :=
  ∀ (config : ConfigByte) (s : State), ∃ f : Frame3,
    exec (.packCommand config) s = .next { s with returns := s.returns ++ [.frame f] } ∧
      f.b0.toNat = (config.toNat >>> 2) &&& 0x07 ∧ f.b1.toNat = (config.toNat <<< 6) &&& 0xC0 ∧
      f.b0 = (config.extractLsb' 2 3).setWidth 8 ∧ f.b1 = config.extractLsb' 0 2 ++ 0#6 ∧ f.b2 = 0x00#8

/-- R62: ENCODE_COMMAND raises InvalidChannel exactly when the channel is outside 0..7, and otherwise ends with the
packed configuration of `c[2:0]`, which is c. -/
def Obligations.EncodeCommandResult : Prop :=
  ∀ (c : Int) (s : State),
    (c < 0 ∨ 7 < c →
      exec (.encodeCommand c) s = .next { s with returns := s.returns ++ [.invalidChannel] }) ∧
    (0 ≤ c ∧ c ≤ 7 → ∃ ch : Channel, (ch.toNat : Int) = c ∧
      exec (.encodeCommand c) s =
        .next { s with returns := s.returns ++ [.frame (packCommand (buildConfig ch))] })

/-- R63: the closed form `[0x06 | (c >> 2), (c & 3) << 6, 0]`, and `W = 0x060000 | (c << 14)`. -/
def Obligations.EncodeCommandClosedForm : Prop :=
  ∀ n : Nat, n ≤ 7 → ∃ f : Frame3, encodeCommand (n : Int) = some f ∧
    f.b0.toNat = 0x06 ||| (n >>> 2) ∧ f.b1.toNat = (n &&& 0x03) <<< 6 ∧ f.b2 = 0x00#8 ∧
    f.toWord.toNat = 0x060000 ||| (n <<< 14)

/-- R51: the eight command frames, row by row, and they are all the words with `W & 0xFE3FFF = 0x060000`. -/
def Obligations.CommandFramesAreTheEight : Prop :=
  encodeCommand 0 = some ⟨0x06#8, 0x00#8, 0x00#8⟩ ∧ encodeCommand 1 = some ⟨0x06#8, 0x40#8, 0x00#8⟩ ∧
    encodeCommand 2 = some ⟨0x06#8, 0x80#8, 0x00#8⟩ ∧ encodeCommand 3 = some ⟨0x06#8, 0xC0#8, 0x00#8⟩ ∧
    encodeCommand 4 = some ⟨0x07#8, 0x00#8, 0x00#8⟩ ∧ encodeCommand 5 = some ⟨0x07#8, 0x40#8, 0x00#8⟩ ∧
    encodeCommand 6 = some ⟨0x07#8, 0x80#8, 0x00#8⟩ ∧ encodeCommand 7 = some ⟨0x07#8, 0xC0#8, 0x00#8⟩ ∧
    ∀ f : Frame3, f.toWord &&& 0xFE3FFF#24 = 0x060000#24 ↔ ∃ c : Int, encodeCommand c = some f

/-- R65: distinct valid channels have distinct frames, the channel is `W[16:14]`, and an invalid one has none. -/
def Obligations.EncodeCommandInjective : Prop :=
  (∀ (c d : Int) (f : Frame3), encodeCommand c = some f → encodeCommand d = some f → c = d) ∧
    (∀ (c : Int) (f : Frame3), encodeCommand c = some f → ((f.toWord.extractLsb' 14 3).toNat : Int) = c) ∧
    ∀ c : Int, c < 0 ∨ 7 < c → encodeCommand c = none

/-- R66, R67: DECODE_RESPONSE ends with `((r[1] & 0x0F) << 8) | r[2]` = `r[1][3:0] ++ r[2]`, at most 4095. -/
def Obligations.DecodeResponseResult : Prop :=
  ∀ (r : Frame3) (s : State), ∃ v : Sample,
    exec (.decodeResponse r) s = .next { s with returns := s.returns ++ [.sample v] } ∧
      v.toNat = ((r.b1.toNat &&& 0x0F) <<< 8) ||| r.b2.toNat ∧ v = r.b1.extractLsb' 0 4 ++ r.b2 ∧
      v.toNat ≤ 4095

/-- R68: the sample depends only on `r[1][3:0]` and `r[2]`, and 2^12 responses give each value: a frame decodes to v
exactly if its word is `x ++ v`, for one 12-bit x. -/
def Obligations.DecodeIgnoresTwelveBits : Prop :=
  (∀ r r' : Frame3, r.b1 &&& 0x0F#8 = r'.b1 &&& 0x0F#8 → r.b2 = r'.b2 → decodeResponse r = decodeResponse r') ∧
    ∀ (r : Frame3) (v : Sample), decodeResponse r = v ↔ ∃! x : BitVec 12, r.toWord = x ++ v

/-- R69: on the 12 bits it reads, DECODE_RESPONSE is a bijection onto the samples. -/
def Obligations.DecodeIsBijectiveOnItsBits : Prop :=
  (∀ v : Sample, decodeResponse ⟨0x00#8, BitVec.ofNat 8 (v.toNat >>> 8), BitVec.ofNat 8 (v.toNat &&& 0xFF)⟩ = v) ∧
    ∀ (a a' : Byte) (h h' n n' : BitVec 4) (b b' : Byte),
      decodeResponse ⟨a, h ++ n, b⟩ = decodeResponse ⟨a', h' ++ n', b'⟩ → n = n' ∧ b = b'

/-- The frame of the five pure operations: in every state each ends with one value, and changes nothing else. -/
def Obligations.PureOperationsFrame : Prop :=
  ∀ (i : Instr) (s : State), (∀ cmd, i ≠ .exchange cmd) → (∀ c, i ≠ .readChannel c) →
    ∃ v, exec i s = .next { s with returns := s.returns ++ [v] }

/-! ## Formats, words and wires -/

/-- Decoding and encoding agree: words decode to an operation exactly if they are its words; and an operation has words
exactly if its row's format can present it. -/
def Obligations.DecodeEncodeAgree : Prop :=
  (∀ (w : OpWord) (i : Instr), decode w = .ok i ↔ encode i = some w) ∧
    ∀ i : Instr, (encode i).isSome = i.hasWords

/-- Words written out from the formats (R43, R45, R46) decode to the operations they stand for. The selector in front of
the bytes is the model's choice (log 7): the spec has no opcode field, and a frame of PACK_COMMAND, ENCODE_COMMAND,
EXCHANGE or READ_CHANNEL is told apart only by it. -/
def Obligations.WrittenWordsDecode : Prop :=
  decode ⟨.buildConfig, [0b00011101#8]⟩ = .ok (.buildConfig 5#3) ∧
    decode ⟨.packCommand, [0b00000111#8, 0b11000000#8, 0#8]⟩ = .ok (.packCommand 0x1F#8) ∧
    decode ⟨.encodeCommand, [0b00000110#8, 0b01000000#8, 0#8]⟩ = .ok (.encodeCommand 1) ∧
    decode ⟨.exchange, [0b00000111#8, 0b01000000#8, 0#8]⟩ = .ok (.exchange ⟨0x07#8, 0x40#8, 0x00#8⟩) ∧
    decode ⟨.decodeResponse, [0x00#8, 0x0A#8, 0xFF#8]⟩ = .ok (.decodeResponse ⟨0x00#8, 0x0A#8, 0xFF#8⟩) ∧
    decode ⟨.readChannel, [0b00000110#8, 0b10000000#8, 0#8]⟩ = .ok (.readChannel 2)

/-- A step runs the operation invoked: the decoded words, or the operation itself, in the state with the invocation
taken; words of no operation are refused by name. -/
def Obligations.StepRunsTheDecodedOperation : Prop :=
  (∀ (s : State) (w : OpWord) (i : Instr), s.invoked = some (.words w) → decode w = .ok i →
      step s = exec i { s with invoked := none }) ∧
    (∀ (s : State) (i : Instr), s.invoked = some (.operation i) → step s = exec i { s with invoked := none }) ∧
    ∀ (s : State) (w : OpWord) (e : DecodeError), s.invoked = some (.words w) → decode w = .error e →
      step s = .refused (.undecodable e)

/-- R28: the word view, and the frame of a word. -/
def Obligations.WordViewOfFrames : Prop :=
  (∀ f : Frame3, f.toWord.toNat = f.b0.toNat * 2 ^ 16 + f.b1.toNat * 2 ^ 8 + f.b2.toNat) ∧
    (∀ f : Frame3, Frame3.ofWord f.toWord = f) ∧ ∀ w : Word24, (Frame3.ofWord w).toWord = w

/-- R29: bit period k carries `W[23 - k]`; bytes go in index order, each most significant bit first. -/
def Obligations.WireOrder : Prop :=
  (∀ (f : Frame3) (k : Fin 24), wireBit f k = f.toWord.getLsbD (23 - k.val)) ∧
    ∀ (f : Frame3) (i : Fin 3) (j : Fin 8) (k : Fin 24), k.val = 8 * i.val + (7 - j.val) →
      wireBit f k = (f.byte i).getLsbD j.val

/-- R30: in bit period k the transport sends `W(out)[23 - k]` and captures `W(in)[23 - k]`, and the bits captured, and
those sent, shifted in over the 24 periods are the frames. -/
def Obligations.ExchangeIsBitAligned : Prop :=
  ∀ out resp : Frame3,
    (∀ k : Fin 24, (bitPeriods out resp)[k.val]? =
      some ⟨out.toWord.getLsbD (23 - k.val), resp.toWord.getLsbD (23 - k.val)⟩) ∧
    assemble ((bitPeriods out resp).map BitPeriod.captured) = resp.toWord ∧
    assemble ((bitPeriods out resp).map BitPeriod.sent) = out.toWord

/-- R108: what the block sends in each bit period for each channel, which sample bit it uses from each, and that the
periods 0 to 11 of a response are ignored whatever they hold. -/
def Obligations.BitPeriodTimeline : Prop :=
  (∀ (ch : Channel) (k : Fin 24), wireBit (packCommand (buildConfig ch)) k = (sendsIn k).bit ch) ∧
    (∀ (r : Frame3) (k : Fin 24) (j : Fin 12), sampleBitIn k = some j →
      wireBit r k = (decodeResponse r).getLsbD j.val) ∧
    (∀ k : Fin 24, k.val < 12 → sampleBitIn k = none) ∧
    (∀ k : Fin 24, 12 ≤ k.val → ∃ j : Fin 12, sampleBitIn k = some j ∧ j.val = 23 - k.val) ∧
    ∀ r r' : Frame3, (∀ k : Fin 24, 12 ≤ k.val → wireBit r k = wireBit r' k) →
      decodeResponse r = decodeResponse r'

/-- R7, D2: on a signed channel port of at least 5 bits, -1 and 8 can be presented, and exactly the patterns 0 to 7
are valid: no pattern aliases a channel. -/
def Obligations.ChannelPortHasNoAlias : Prop :=
  ∀ n : Nat, Config.channelInMinWidth ≤ n →
    (∃ v : BitVec n, channelOfPort v = -1) ∧ (∃ v : BitVec n, channelOfPort v = 8) ∧
      ∀ v : BitVec n, validate (channelOfPort v) = true ↔ v.toNat ≤ 7

/-! ## EXCHANGE

Invoking it by itself is the model's choice (log 4), and so is who waits for its answer (log 6). -/

/-- EXCHANGE completes: with no fault, in `Idle`, for a command frame, it issues exactly one `XOUT` and waits. -/
def Obligations.ExchangeStarts : Prop :=
  ∀ (cmd : Frame3) (s : State), isCmd24 cmd = true → s.fault = none → s.phase = .idle →
    exec (.exchange cmd) s = .next { s with
      log := s.log ++ [.xfer cmd], xout := s.xout ++ [cmd], phase := .exchanging cmd, awaiting := .invoker }

/-- R72: EXCHANGE by itself, run to its end: `Xfer` and one `XOUT`; then it returns the frame the transport answers, or
raises its failure unchanged, or waits for ever. A frame that goes out is always one of the eight of R51. The stop
`noAnswer` by which the model shows the waiting is its choice (log 10), and so are the answers to come as a list
(log 2), the place of the value returned (log 4) and that a request sent early would go first (log 3). -/
def Obligations.ExchangeRunsToItsAnswer : Prop :=
  (∀ (cmd : Frame3) (s t : State), exec (.exchange cmd) s = .next t → ∃ c : Int, encodeCommand c = some cmd) ∧
  ∀ (cmd : Frame3) (s : State), isCmd24 cmd = true → s.fault = none → s.phase = .idle → s.awaiting = .caller →
    s.invoked = some (.operation (.exchange cmd)) → s.nextIsEarly = false →
    ∃ t, step s = .next t ∧ t.log = s.log ++ [.xfer cmd] ∧ t.xout = s.xout ++ [cmd] ∧
      t.phase = .exchanging cmd ∧ t.rsp = s.rsp ∧ t.returns = s.returns ∧
      (s.xin = [] → step t = .fault .noAnswer) ∧
      (∀ resp rest, s.xin = .frame resp :: rest → step t = .next { s with
        invoked := none, xin := rest, log := s.log ++ [.xfer cmd, .xferOk resp], xout := s.xout ++ [cmd],
        returns := s.returns ++ [.frame resp] }) ∧
      (∀ e rest, s.xin = .error e :: rest → step t = .next { s with
        invoked := none, xin := rest, log := s.log ++ [.xfer cmd, .xferErr e], xout := s.xout ++ [cmd],
        returns := s.returns ++ [.transportError e] })

/-- R53: a frame that is none of the eight is never emitted: EXCHANGE refuses it by name, in every state. -/
def Obligations.ExchangeRefusesReservedFrames : Prop :=
  ∀ (cmd : Frame3) (s : State), (∀ c : Int, encodeCommand c ≠ some cmd) →
    exec (.exchange cmd) s = .refused .reservedCommandFrame

/-- An exchange while one is outstanding, on the same handle, breaks the serialization duty (R102, R105, log 9): the
fault is recorded and nothing else; with the fault recorded there is no step (R79). -/
def Obligations.ExchangeDuringExchange : Prop :=
  ∀ (cmd other : Frame3) (s : State), isCmd24 cmd = true → s.phase = .exchanging other →
    (s.fault = none → exec (.exchange cmd) s = .next { s with fault := some .overlappingRequest }) ∧
    (s.fault = some .overlappingRequest → exec (.exchange cmd) s = .fault .overlappingRequest)

/-! ## READ_CHANNEL and the step relation

The premise `nextIsEarly = false`, no request sent early, is the model's choice of when the caller's request goes first
(log 3). -/

/-- R73, R7: READ_CHANNEL as a function of the transport, for every payload type `E` of its failures, with its count of
calls. -/
def Obligations.ReadChannelFunction : Prop :=
  ∀ (E : Type) (xfer : Frame3 → Answer E) (c : Int),
    (c < 0 ∨ 7 < c → readChannel xfer c = .invalidChannel ∧ transportCalls c = 0) ∧
    (0 ≤ c ∧ c ≤ 7 → ∃ cmd, encodeCommand c = some cmd ∧ transportCalls c = 1 ∧
      (∀ resp, xfer cmd = .frame resp → readChannel xfer c = .ok (decodeResponse resp)) ∧
      ∀ e, xfer cmd = .error e → readChannel xfer c = .transportError e)

/-- R74 `Request-Invalid`. -/
def Obligations.RequestInvalidStep : Prop :=
  ∀ (c : Int) (s : State), s.fault = none → s.phase = .idle → (c < 0 ∨ 7 < c) →
    exec (.readChannel c) s = .next { s with
      log := s.log ++ [.req c, .done .invalidChannel], rsp := s.rsp ++ [.invalidChannel] }

/-- R75 `Request-Valid`. -/
def Obligations.RequestValidStep : Prop :=
  ∀ (c : Int) (s : State), s.fault = none → s.phase = .idle → 0 ≤ c → c ≤ 7 →
    ∃ cmd, encodeCommand c = some cmd ∧
      exec (.readChannel c) s = .next { s with
        log := s.log ++ [.req c, .xfer cmd], xout := s.xout ++ [cmd], phase := .exchanging cmd,
        awaiting := .caller }

/-- R76 `Answer-Frame`. -/
def Obligations.AnswerFrameStep : Prop :=
  ∀ (cmd resp : Frame3) (rest : List (Answer TErr)) (s : State), s.invoked = none → s.fault = none →
    s.phase = .exchanging cmd → s.awaiting = .caller → s.nextIsEarly = false → s.xin = .frame resp :: rest →
    step s = .next { s with
      xin := rest, log := s.log ++ [.xferOk resp, .done (.ok (decodeResponse resp))],
      rsp := s.rsp ++ [.ok (decodeResponse resp)], phase := .idle }

/-- R77 `Answer-Error`: no retry, the payload unchanged. -/
def Obligations.AnswerErrorStep : Prop :=
  ∀ (cmd : Frame3) (e : TErr) (rest : List (Answer TErr)) (s : State), s.invoked = none → s.fault = none →
    s.phase = .exchanging cmd → s.awaiting = .caller → s.nextIsEarly = false → s.xin = .error e :: rest →
    step s = .next { s with
      xin := rest, log := s.log ++ [.xferErr e, .done (.transportError e)],
      rsp := s.rsp ++ [.transportError e], phase := .idle }

/-- R78 `Request-Overlap`, for any c. -/
def Obligations.RequestOverlapStep : Prop :=
  ∀ (c : Int) (cmd : Frame3) (s : State), s.fault = none → s.phase = .exchanging cmd →
    exec (.readChannel c) s = .next { s with
      log := s.log ++ [.req c], fault := some .overlappingRequest }

/-- Which steps are enabled in every state, after R79. The model's choices: with nothing invoked by itself (log 4); a
request sent early goes before an answer that is ready, and any other request waits (log 3); where no step is enabled
the step stops with `overlappingRequest`, `noRequest` or `noAnswer` (log 10). A faulted state has none; in
`Idle` only a request, never an answer; in `Exchanging` a request that does not wait, or the transport's answer, or
none for ever. -/
def Obligations.EnabledSteps : Prop :=
  ∀ s : State, s.invoked = none →
    (s.fault ≠ none → step s = .fault .overlappingRequest ∧ ¬ s.Final) ∧
    (s.fault = none → s.phase = .idle →
      (s.req = [] → step s = .fault .noRequest) ∧
      ∀ r rest, s.req = r :: rest → step s = exec (.readChannel r.channel) { s with req := rest }) ∧
    (∀ cmd, s.fault = none → s.phase = .exchanging cmd →
      (∀ r rest, s.req = r :: rest → r.early = true →
        step s = exec (.readChannel r.channel) { s with req := rest }) ∧
      (s.nextIsEarly = false → s.xin = [] → step s = .fault .noAnswer) ∧
      ∀ a rest, s.nextIsEarly = false → s.xin = a :: rest → ∃ t, step s = .next t ∧ t.phase = .idle ∧ t.xin = rest)

/-- R81: a request and, if it is in `Exchanging`, one answer a deliver what READ_CHANNEL does with a transport that
answers a; the exchanges appended are 1 for a valid channel and 0 otherwise. -/
def Obligations.StepsAgreeWithReadChannel : Prop :=
  ∀ (c : Int) (early : Bool) (rest : List Request) (a : Answer TErr) (later : List (Answer TErr)) (s : State),
    s.invoked = none → s.fault = none → s.phase = .idle → s.req = ⟨c, early⟩ :: rest → s.xin = a :: later →
    State.nextIsEarly { s with req := rest } = false →
    ∃ t, step s = .next t ∧
      (validate c = false → t.phase = .idle ∧ t.xin = a :: later ∧
        t.rsp = s.rsp ++ [readChannel (fun _ => a) c] ∧ countXfer t.log = countXfer s.log) ∧
      (validate c = true → t.rsp = s.rsp ∧ ∃ u, step t = .next u ∧ u.phase = .idle ∧ u.xin = later ∧
        u.rsp = s.rsp ++ [readChannel (fun _ => a) c] ∧ countXfer u.log = countXfer s.log + 1)

/-- R85, R86: InvalidChannel is delivered when, and only when, the request taken in `Idle` is outside 0..7, before any
exchange, and TransportError(e) when, and only when, the transport answers the outstanding exchange with e. -/
def Obligations.ErrorsAreDeliveredExactly : Prop :=
  ∀ s t : State, s.invoked = none → s.awaiting = .caller → step s = .next t →
    (t.rsp = s.rsp ++ [.invalidChannel] ↔
      s.phase = .idle ∧ ∃ r rest, s.req = r :: rest ∧ (r.channel < 0 ∨ 7 < r.channel)) ∧
    (t.rsp = s.rsp ++ [.invalidChannel] → t.xout = s.xout) ∧
    ∀ e, t.rsp = s.rsp ++ [.transportError e] ↔
      (∃ cmd, s.phase = .exchanging cmd) ∧ s.nextIsEarly = false ∧ s.xin.head? = some (.error e)

/-- R84, D4: the tags of the three results, for every payload type; tag 1 exactly for an invalid channel. -/
def Obligations.ResultTags : Prop :=
  ∀ E : Type, (∀ v, (Result.ok v : Result E).tag = 0) ∧ (Result.invalidChannel : Result E).tag = 1 ∧
    (∀ e : E, (Result.transportError e).tag = 2) ∧
    ∀ (xfer : Frame3 → Answer E) (c : Int), (readChannel xfer c).tag = 1 ↔ c < 0 ∨ 7 < c

/-- What EXCHANGE and READ_CHANNEL leave alone: the requests and answers to come, the invocation, the values returned,
and with a result delivered the frames emitted, and the reverse. -/
def Obligations.TransactionFrame : Prop :=
  ∀ (i : Instr) (s t : State), (∃ cmd, i = .exchange cmd) ∨ (∃ c, i = .readChannel c) → exec i s = .next t →
    t.req = s.req ∧ t.xin = s.xin ∧ t.invoked = s.invoked ∧ t.returns = s.returns ∧
      (t.xout ≠ s.xout → t.rsp = s.rsp ∧ t.fault = s.fault) ∧
      (t.rsp ≠ s.rsp → t.xout = s.xout ∧ t.phase = .idle ∧ t.fault = s.fault) ∧
      (t.fault ≠ s.fault → t.xout = s.xout ∧ t.rsp = s.rsp ∧ t.phase = s.phase)

/-! ## The whole machine -/

/-- Every step of the block is one of the five steps of R74 to R78; no other step exists. -/
def Obligations.StepRefinesTheRules : Prop :=
  ∀ s t : State, s.invoked = none → s.awaiting = .caller → step s = .next t →
    ∃ m, StepRule m s.block t.block

/-- Every step that R74 to R78 enable is a step of the machine, for the choices of the caller and the transport that
bring its message. -/
def Obligations.RulesAreSteps : Prop :=
  ∀ (s : State) (m : Message TErr) (b : Block TErr), s.invoked = none → s.awaiting = .caller → StepRule m s.block b →
    ∃ (requests : List Request) (answers : List (Answer TErr)) (t : State),
      step { s with req := requests, xin := answers } = .next t ∧ t.block = b

/-- R39, R37: every step keeps the log in the shape of complete transactions, one after another, the last one perhaps
in flight or overlapped, just as the fault and the phase say. -/
def Obligations.StepKeepsSerial : Prop :=
  ∀ s t : State, s.Serial → step s = .next t → t.Serial

/-- R39: with no fault, frames go out in the order of the valid requests, one each, and results come in the order of
the requests, one each, but for the request in flight. -/
def Obligations.TransactionsAreTotallyOrdered : Prop :=
  ∀ s : State, s.Serial → s.fault = none →
    s.log.filterMap Event.sent = (s.log.filterMap Event.requested).filterMap encodeCommand ∧
    (s.phase = .idle → (s.log.filterMap Event.delivered).length = (s.log.filterMap Event.requested).length) ∧
    (s.phase ≠ .idle → (s.log.filterMap Event.delivered).length + 1 = (s.log.filterMap Event.requested).length) ∧
    List.Forall₂ (fun c r => r = Result.invalidChannel ↔ validate c = false)
      ((s.log.filterMap Event.requested).take (s.log.filterMap Event.delivered).length)
      (s.log.filterMap Event.delivered)

/-- R80: every idle state without a fault, of a run of the block, is final; a state in `Exchanging` or with a fault is
not. -/
def Obligations.IdleStatesAreFinal : Prop :=
  ∀ s : State, s.Serial → (s.Final ↔ s.fault = none ∧ s.phase = .idle)

/-- Every step, operations invoked by themselves included, keeps the messages on XOUT and RSP equal to those the log
names. -/
def Obligations.StepKeepsPortsAgree : Prop :=
  ∀ s t : State, s.PortsAgree → step s = .next t → t.PortsAgree

/-- R53, R51: every step, operations invoked by themselves included, emits only the eight command frames, and the frame
in flight is the last one emitted. -/
def Obligations.StepKeepsCommandsOnly : Prop :=
  ∀ s t : State, s.CommandsOnly → step s = .next t → t.CommandsOnly

/-- R18: every step leaves `Idle` holding nothing. -/
def Obligations.StepKeepsIdleHoldsNothing : Prop :=
  ∀ s t : State, s.IdleHoldsNothing → step s = .next t → t.IdleHoldsNothing

/-- R20: the log is appended to, never rewritten, and so are the messages sent and the values returned. -/
def Obligations.HistoryIsAppendOnly : Prop :=
  ∀ s t : State, step s = .next t →
    s.log <+: t.log ∧ s.xout <+: t.xout ∧ s.rsp <+: t.rsp ∧ s.returns <+: t.returns

/-- R19: once set, the fault is never cleared by any step, and nothing of the block changes any more; and such a state
is never final. -/
def Obligations.FaultIsSticky : Prop :=
  ∀ s : State, s.fault ≠ none → ¬ s.Final ∧ ∀ t, step s = .next t → t.block = s.block

/-- R87: the fault is recorded only while a transaction is in flight, changes neither the phase nor what was sent, and
is never delivered on RSP. -/
def Obligations.FaultOnlyInFlight : Prop :=
  ∀ s t : State, step s = .next t → s.fault = none → t.fault ≠ none →
    (∃ cmd, s.phase = .exchanging cmd) ∧ t.phase = s.phase ∧ t.xout = s.xout ∧ t.rsp = s.rsp ∧ t.xin = s.xin

/-- R103, R35: an exchange in flight ends only with the transport's answer: until then every step leaves the phase and
the frames emitted as they are. -/
def Obligations.ExchangeIsNotAborted : Prop :=
  ∀ (s t : State) (cmd : Frame3), step s = .next t → s.phase = .exchanging cmd →
    t.xout = s.xout ∧
      (t.phase = .exchanging cmd ∨
       (t.phase = .idle ∧ ∃ a rest, s.xin = a :: rest ∧ t.xin = rest ∧ (s.log ++ [a.event]) <+: t.log))

/-- R91: after any result the block is in `Idle` without a fault, has not sent another frame, and the next request of
any channel is accepted. -/
def Obligations.AfterAResultIdle : Prop :=
  ∀ s t : State, step s = .next t → t.rsp ≠ s.rsp →
    t.phase = .idle ∧ t.fault = none ∧ t.xout = s.xout ∧
      ∀ c : Int, ∃ u, exec (.readChannel c) t = .next u ∧ u.fault = none

/-- R83, R13: no step depends on the past: from the same phase, fault, ports to come and invocation, it does the same,
whatever the log, the messages sent and the values returned so far. -/
def Obligations.StepsDoNotReadThePast : Prop :=
  ∀ s : State, step s = mapNext s.after (step s.forget)

/-- R86, D5: no operation inspects the payload of a failure: renaming payloads before a step or after it is the same;
and for all payload types `E` and `E'`, a renaming of the one into the other carries every READ_CHANNEL and every one of
the five steps along. -/
def Obligations.PayloadIsOpaque : Prop :=
  (∀ (f : TErr → TErr) (s : State), step (s.rename f) = mapNext (State.rename f) (step s)) ∧
    ∀ (E E' : Type) (f : E → E'),
      (∀ (xfer : Frame3 → Answer E) (c : Int),
        readChannel (fun cmd => (xfer cmd).rename f) c = (readChannel xfer c).rename f) ∧
      ∀ (m : Message E) (b b' : Block E), StepRule m b b' → StepRule (m.rename f) (b.rename f) (b'.rename f)

/-- R54, R68 over the machine: two states that differ only in the ignored bits of the answers to come (and in the log
and the values returned) take steps to two such states, so no result ever depends on those bits. -/
def Obligations.IgnoredBitsNeverMatter : Prop :=
  ∀ s t s' : State, s.alike t → step s = .next s' → ∃ t', step t = .next t' ∧ s'.alike t'

/-- R57, R39: a transaction script loaded in an idle state without a fault runs to the end state that READ_CHANNEL as a
function gives, line by line, in at most two steps a line, and there it stops. That a script is loaded from outside
the machine is the model's choice (log 4), and so is the named fault with which a run stops (log 10). -/
def Obligations.ScriptsRunToTheirEndState : Prop :=
  ∀ (p : Script TErr) (s : State) (n : Nat), s.invoked = none → s.fault = none → s.phase = .idle →
    2 * p.program.length ≤ n →
    (runToStop n (s.load p)).endState = expectedEnd s.rsp s.xout p.program p.transport ∧
      ∃ f, step (runToStop n (s.load p)) = .fault f

/-- R96: several blocks are independent: a step of one is its own step and leaves every other as it was. -/
def Obligations.InstancesAreIndependent : Prop :=
  ∀ (k : Nat) (blocks blocks' : List State), stepInstance k blocks = .next blocks' →
    blocks'.length = blocks.length ∧ (∀ j, j ≠ k → blocks'[j]? = blocks[j]?) ∧
      ∃ s t, blocks[k]? = some s ∧ step s = .next t ∧ blocks'[k]? = some t
end

