-- ==== Sys2Proof/Laws/Decode.lean ====
section
/-! SUPPORT. What the decoder of each format accepts, said once. -/

namespace Sys2Proof

/-- CMD24 words are the bytes of one frame of that format (R45). -/
theorem decodeCmd24_eq_ok_iff {bytes : List Byte} {k : Frame3 → Instr} {i : Instr} :
    decodeCmd24 bytes k = .ok i ↔ ∃ f : Frame3, bytes = f.bytes ∧ isCmd24 f = true ∧ k f = i := by
  constructor
  · intro h
    unfold decodeCmd24 at h
    split at h
    · rename_i b0 b1 b2
      split at h
      · rename_i hf
        injection h with h
        exact ⟨⟨b0, b1, b2⟩, rfl, hf, h⟩
      · cases h
    · cases h
  · rintro ⟨f, rfl, hf, rfl⟩
    exact if_pos hf

/-- CFG8 words are one byte of that format (R43). -/
theorem decodeCfg8_eq_ok_iff {bytes : List Byte} {i : Instr} :
    decodeCfg8 bytes = .ok i ↔ ∃ b, bytes = [b] ∧ isCfg8 b = true ∧ i = .buildConfig (cfg8Channel b) := by
  constructor
  · intro h
    unfold decodeCfg8 at h
    split at h
    · rename_i b
      split at h
      · rename_i hb
        injection h with h
        exact ⟨b, rfl, hb, h.symm⟩
      · cases h
    · cases h
  · rintro ⟨b, rfl, hb, rfl⟩
    exact if_pos hb

/-- RSP24 words are the bytes of any frame (R46, R54). -/
theorem decodeRsp24_eq_ok_iff {bytes : List Byte} {i : Instr} :
    decodeRsp24 bytes = .ok i ↔ ∃ f : Frame3, bytes = f.bytes ∧ i = .decodeResponse f := by
  constructor
  · intro h
    unfold decodeRsp24 at h
    split at h
    · rename_i b0 b1 b2
      injection h with h
      exact ⟨⟨b0, b1, b2⟩, rfl, h.symm⟩
    · cases h
  · rintro ⟨f, rfl, rfl⟩
    rfl

/-- The value of bits put side by side: the word view of a frame is built of these (R28). -/
theorem toNat_append_eq_add {m n : Nat} (a : BitVec m) (b : BitVec n) :
    (a ++ b).toNat = a.toNat * 2 ^ n + b.toNat := by
  rw [BitVec.toNat_append, Nat.shiftLeft_eq, Nat.mul_comm, ← Nat.two_pow_add_eq_or_of_lt b.isLt]

end Sys2Proof
end

