-- ==== Sys2Proof/Laws/Functions.lean ====
section
/-! SUPPORT. The small lemmas of the pure operations. -/

namespace Sys2Proof.Machine

theorem validate_eq_true_iff {c : Int} : validate c = true ↔ 0 ≤ c ∧ c ≤ 7 := by
  simp [validate]

theorem validate_eq_false_iff {c : Int} : validate c = false ↔ c < 0 ∨ 7 < c := by
  rw [← Bool.not_eq_true, validate_eq_true_iff]
  omega

theorem encodeCommand_of_valid {c : Int} (h : validate c = true) :
    encodeCommand c = some (packCommand (buildConfig (channelBits c))) := by
  simp [encodeCommand, h]

theorem encodeCommand_of_invalid {c : Int} (h : validate c = false) : encodeCommand c = none := by
  simp [encodeCommand, h]

theorem encodeCommand_eq_some_iff {c : Int} {cmd : Frame3} :
    encodeCommand c = some cmd ↔ validate c = true ∧ packCommand (buildConfig (channelBits c)) = cmd := by
  cases h : validate c <;> simp [encodeCommand, h]

theorem encodeCommand_eq_none_iff {c : Int} : encodeCommand c = none ↔ validate c = false := by
  cases h : validate c <;> simp [encodeCommand, h]

end Sys2Proof.Machine
end

