-- ==== Sys2Proof/Laws/Log.lean ====
section
/-! SUPPORT. The shape of a log that grows by one event or two. -/

namespace Sys2Proof.Machine

variable {E : Type}

theorem logPhase_append_one [DecidableEq E] (log : List (Event E)) (e : Event E) :
    logPhase (log ++ [e]) = (logPhase log).bind fun p => logNext p e := by
  simp [logPhase, List.foldlM_append]

theorem logPhase_append_two [DecidableEq E] (log : List (Event E)) (e e' : Event E) :
    logPhase (log ++ [e, e']) = ((logPhase log).bind fun p => logNext p e).bind fun p => logNext p e' := by
  rw [List.append_cons, logPhase_append_one, logPhase_append_one]

end Sys2Proof.Machine
end

