-- ==== Sys2Proof/Laws/State.lean ====
section
/-! SUPPORT. What each named operation over the state does to each field, so that no later proof unfolds a record
update. -/

namespace Sys2Proof.Machine

/-! ## State.emit -/

@[simp] theorem State.emit_phase (s : State) (e : Event TErr) : (s.emit e).phase = s.phase := rfl
@[simp] theorem State.emit_fault (s : State) (e : Event TErr) : (s.emit e).fault = s.fault := rfl
@[simp] theorem State.emit_log (s : State) (e : Event TErr) : (s.emit e).log = s.log ++ [e] := rfl
@[simp] theorem State.emit_req (s : State) (e : Event TErr) : (s.emit e).req = s.req := rfl
@[simp] theorem State.emit_xin (s : State) (e : Event TErr) : (s.emit e).xin = s.xin := rfl
@[simp] theorem State.emit_xout (s : State) (e : Event TErr) : (s.emit e).xout = s.xout := rfl
@[simp] theorem State.emit_rsp (s : State) (e : Event TErr) : (s.emit e).rsp = s.rsp := rfl
@[simp] theorem State.emit_invoked (s : State) (e : Event TErr) : (s.emit e).invoked = s.invoked := rfl
@[simp] theorem State.emit_awaiting (s : State) (e : Event TErr) : (s.emit e).awaiting = s.awaiting := rfl
@[simp] theorem State.emit_returns (s : State) (e : Event TErr) : (s.emit e).returns = s.returns := rfl

/-! ## State.startExchange -/

@[simp] theorem State.startExchange_phase (s : State) (who : Awaiting) (cmd : Frame3) : (s.startExchange who cmd).phase = .exchanging cmd := rfl
@[simp] theorem State.startExchange_fault (s : State) (who : Awaiting) (cmd : Frame3) : (s.startExchange who cmd).fault = s.fault := rfl
@[simp] theorem State.startExchange_log (s : State) (who : Awaiting) (cmd : Frame3) : (s.startExchange who cmd).log = s.log ++ [.xfer cmd] := rfl
@[simp] theorem State.startExchange_req (s : State) (who : Awaiting) (cmd : Frame3) : (s.startExchange who cmd).req = s.req := rfl
@[simp] theorem State.startExchange_xin (s : State) (who : Awaiting) (cmd : Frame3) : (s.startExchange who cmd).xin = s.xin := rfl
@[simp] theorem State.startExchange_xout (s : State) (who : Awaiting) (cmd : Frame3) : (s.startExchange who cmd).xout = s.xout ++ [cmd] := rfl
@[simp] theorem State.startExchange_rsp (s : State) (who : Awaiting) (cmd : Frame3) : (s.startExchange who cmd).rsp = s.rsp := rfl
@[simp] theorem State.startExchange_invoked (s : State) (who : Awaiting) (cmd : Frame3) : (s.startExchange who cmd).invoked = s.invoked := rfl
@[simp] theorem State.startExchange_awaiting (s : State) (who : Awaiting) (cmd : Frame3) : (s.startExchange who cmd).awaiting = who := rfl
@[simp] theorem State.startExchange_returns (s : State) (who : Awaiting) (cmd : Frame3) : (s.startExchange who cmd).returns = s.returns := rfl

/-! ## State.deliver -/

@[simp] theorem State.deliver_phase (s : State) (r : Result TErr) : (s.deliver r).phase = .idle := rfl
@[simp] theorem State.deliver_fault (s : State) (r : Result TErr) : (s.deliver r).fault = s.fault := rfl
@[simp] theorem State.deliver_log (s : State) (r : Result TErr) : (s.deliver r).log = s.log ++ [.done r] := rfl
@[simp] theorem State.deliver_req (s : State) (r : Result TErr) : (s.deliver r).req = s.req := rfl
@[simp] theorem State.deliver_xin (s : State) (r : Result TErr) : (s.deliver r).xin = s.xin := rfl
@[simp] theorem State.deliver_xout (s : State) (r : Result TErr) : (s.deliver r).xout = s.xout := rfl
@[simp] theorem State.deliver_rsp (s : State) (r : Result TErr) : (s.deliver r).rsp = s.rsp ++ [r] := rfl
@[simp] theorem State.deliver_invoked (s : State) (r : Result TErr) : (s.deliver r).invoked = s.invoked := rfl
@[simp] theorem State.deliver_awaiting (s : State) (r : Result TErr) : (s.deliver r).awaiting = s.awaiting := rfl
@[simp] theorem State.deliver_returns (s : State) (r : Result TErr) : (s.deliver r).returns = s.returns := rfl

/-! ## State.recordOverlap -/

@[simp] theorem State.recordOverlap_phase (s : State) : (s.recordOverlap).phase = s.phase := rfl
@[simp] theorem State.recordOverlap_fault (s : State) : (s.recordOverlap).fault = some .overlappingRequest := rfl
@[simp] theorem State.recordOverlap_log (s : State) : (s.recordOverlap).log = s.log := rfl
@[simp] theorem State.recordOverlap_req (s : State) : (s.recordOverlap).req = s.req := rfl
@[simp] theorem State.recordOverlap_xin (s : State) : (s.recordOverlap).xin = s.xin := rfl
@[simp] theorem State.recordOverlap_xout (s : State) : (s.recordOverlap).xout = s.xout := rfl
@[simp] theorem State.recordOverlap_rsp (s : State) : (s.recordOverlap).rsp = s.rsp := rfl
@[simp] theorem State.recordOverlap_invoked (s : State) : (s.recordOverlap).invoked = s.invoked := rfl
@[simp] theorem State.recordOverlap_awaiting (s : State) : (s.recordOverlap).awaiting = s.awaiting := rfl
@[simp] theorem State.recordOverlap_returns (s : State) : (s.recordOverlap).returns = s.returns := rfl

/-! ## State.endWith -/

@[simp] theorem State.endWith_phase (s : State) (v : Returned TErr) : (s.endWith v).phase = s.phase := rfl
@[simp] theorem State.endWith_fault (s : State) (v : Returned TErr) : (s.endWith v).fault = s.fault := rfl
@[simp] theorem State.endWith_log (s : State) (v : Returned TErr) : (s.endWith v).log = s.log := rfl
@[simp] theorem State.endWith_req (s : State) (v : Returned TErr) : (s.endWith v).req = s.req := rfl
@[simp] theorem State.endWith_xin (s : State) (v : Returned TErr) : (s.endWith v).xin = s.xin := rfl
@[simp] theorem State.endWith_xout (s : State) (v : Returned TErr) : (s.endWith v).xout = s.xout := rfl
@[simp] theorem State.endWith_rsp (s : State) (v : Returned TErr) : (s.endWith v).rsp = s.rsp := rfl
@[simp] theorem State.endWith_invoked (s : State) (v : Returned TErr) : (s.endWith v).invoked = s.invoked := rfl
@[simp] theorem State.endWith_awaiting (s : State) (v : Returned TErr) : (s.endWith v).awaiting = s.awaiting := rfl
@[simp] theorem State.endWith_returns (s : State) (v : Returned TErr) : (s.endWith v).returns = s.returns ++ [v] := rfl

/-! ## State.settle -/

@[simp] theorem State.settle_phase (s : State) : (s.settle).phase = .idle := rfl
@[simp] theorem State.settle_fault (s : State) : (s.settle).fault = s.fault := rfl
@[simp] theorem State.settle_log (s : State) : (s.settle).log = s.log := rfl
@[simp] theorem State.settle_req (s : State) : (s.settle).req = s.req := rfl
@[simp] theorem State.settle_xin (s : State) : (s.settle).xin = s.xin := rfl
@[simp] theorem State.settle_xout (s : State) : (s.settle).xout = s.xout := rfl
@[simp] theorem State.settle_rsp (s : State) : (s.settle).rsp = s.rsp := rfl
@[simp] theorem State.settle_invoked (s : State) : (s.settle).invoked = s.invoked := rfl
@[simp] theorem State.settle_awaiting (s : State) : (s.settle).awaiting = .caller := rfl
@[simp] theorem State.settle_returns (s : State) : (s.settle).returns = s.returns := rfl

end Sys2Proof.Machine
end

