-- ==== Sys2Proof/Laws/Ops.lean ====
section
/-! SUPPORT. What the transport's answer, EXCHANGE and READ_CHANNEL can do, said once. -/

namespace Sys2Proof.Machine

/-- The transport's answer to a transaction (R76, R77). -/
theorem State.answer_caller {s : State} (h : s.awaiting = .caller) (a : Answer TErr) :
    s.answer a = (s.emit a.event).deliver a.result := by
  simp [State.answer, h]

/-- The transport's answer to EXCHANGE invoked by itself (R72). -/
theorem State.answer_invoker {s : State} (h : s.awaiting = .invoker) (a : Answer TErr) :
    s.answer a = ((s.emit a.event).endWith a.returned).settle := by
  simp [State.answer, h]

theorem State.answer_phase (s : State) (a : Answer TErr) : (s.answer a).phase = .idle := by
  cases h : s.awaiting <;> simp [State.answer, h]

theorem State.answer_awaiting (s : State) (a : Answer TErr) : (s.answer a).awaiting = .caller := by
  cases h : s.awaiting <;> simp [State.answer, h]

theorem State.answer_fault (s : State) (a : Answer TErr) : (s.answer a).fault = s.fault := by
  cases h : s.awaiting <;> simp [State.answer, h]

theorem State.answer_invoked (s : State) (a : Answer TErr) : (s.answer a).invoked = s.invoked := by
  cases h : s.awaiting <;> simp [State.answer, h]

theorem State.answer_req (s : State) (a : Answer TErr) : (s.answer a).req = s.req := by
  cases h : s.awaiting <;> simp [State.answer, h]

theorem State.answer_xin (s : State) (a : Answer TErr) : (s.answer a).xin = s.xin := by
  cases h : s.awaiting <;> simp [State.answer, h]

theorem State.answer_xout (s : State) (a : Answer TErr) : (s.answer a).xout = s.xout := by
  cases h : s.awaiting <;> simp [State.answer, h]

/-- If READ_CHANNEL answers next, it took one of the three request steps (R74, R75, R78). -/
theorem execReadChannel_next_cases {c : Int} {s s' : State} (h : execReadChannel c s = .next s') :
    s.fault = none ∧
      ((s.phase = .idle ∧ encodeCommand c = none ∧ s' = (s.emit (.req c)).deliver .invalidChannel) ∨
       (∃ cmd, s.phase = .idle ∧ encodeCommand c = some cmd ∧
          s' = (s.emit (.req c)).startExchange .caller cmd) ∨
       (∃ cmd, s.phase = .exchanging cmd ∧ s' = (s.emit (.req c)).recordOverlap)) := by
  unfold execReadChannel at h
  split at h
  · cases h
  · rename_i hf hp
    refine ⟨hf, ?_⟩
    split at h <;> rename_i he <;> injection h with h
    · exact .inl ⟨hp, he, h.symm⟩
    · exact .inr (.inl ⟨_, hp, he, h.symm⟩)
  · rename_i cmd hf hp
    injection h with h
    exact ⟨hf, .inr (.inr ⟨cmd, hp, h.symm⟩)⟩

/-- If EXCHANGE answers next, it started the exchange or recorded the fault (R72, R105). -/
theorem execExchange_next_cases {cmd : Frame3} {s s' : State} (h : execExchange cmd s = .next s') :
    isCmd24 cmd = true ∧ s.fault = none ∧
      ((s.phase = .idle ∧ s' = s.startExchange .invoker cmd) ∨
       (∃ other, s.phase = .exchanging other ∧ s' = s.recordOverlap)) := by
  unfold execExchange at h
  split at h
  · rename_i hc
    refine ⟨hc, ?_⟩
    split at h
    · cases h
    · rename_i hf hp
      injection h with h
      exact ⟨hf, .inl ⟨hp, h.symm⟩⟩
    · rename_i other hf hp
      injection h with h
      exact ⟨hf, .inr ⟨other, hp, h.symm⟩⟩
  · cases h

/-- What ENCODE_COMMAND ends with (R62). -/
theorem execEncodeCommand_eq (c : Int) (s : State) :
    execEncodeCommand c s =
      .next (s.endWith ((encodeCommand c).elim .invalidChannel .frame)) := by
  unfold execEncodeCommand
  cases encodeCommand c <;> rfl

end Sys2Proof.Machine
end

