-- ==== Sys2Proof/Laws/PerInstr.lean ====
section
/-! SUPPORT. A statement about every operation as syntax, one lemma per constructor: an operation that has words is well
formed, its words are selected as the operation and are as long as its format (30_encoding.md rules R43, R56). -/

namespace Sys2Proof.Laws.EncodeShape

/-- The selector of an operation's row (R50). -/
def selectorOf : Instr → Selector
  | .validate _ => .validate
  | .buildConfig _ => .buildConfig
  | .packCommand _ => .packCommand
  | .encodeCommand _ => .encodeCommand
  | .exchange _ => .exchange
  | .decodeResponse _ => .decodeResponse
  | .readChannel _ => .readChannel

/-- The bytes of a format: one of CFG8 (R43), three of the frames (R56). -/
def formatBytes : Selector → Nat
  | .buildConfig => 1
  | _ => Config.frameBytes

def Statement (i : Instr) : Prop :=
  ∀ w, encode i = some w →
    i.wellFormed = true ∧ i.hasWords = true ∧ w.sel = selectorOf i ∧ w.bytes.length = formatBytes w.sel

theorem validate (c : Int) : Statement (.validate c) := by
  intro w h
  simp [encode] at h

theorem buildConfig (ch : Channel) : Statement (.buildConfig ch) := by
  intro w h
  obtain rfl := Option.some.inj h
  exact ⟨rfl, rfl, rfl, rfl⟩

theorem packCommand (config : ConfigByte) : Statement (.packCommand config) := by
  intro w h
  simp only [encode] at h
  split at h <;> rename_i hc
  · obtain rfl := Option.some.inj h
    exact ⟨rfl, hc, rfl, rfl⟩
  · cases h

theorem encodeCommand (c : Int) : Statement (.encodeCommand c) := by
  intro w h
  simp only [encode, Machine.encodeCommand] at h
  split at h <;> rename_i hc
  · obtain rfl := Option.some.inj h
    exact ⟨rfl, hc, rfl, rfl⟩
  · cases h

theorem exchange (cmd : Frame3) : Statement (.exchange cmd) := by
  intro w h
  simp only [encode] at h
  split at h <;> rename_i hc
  · obtain rfl := Option.some.inj h
    exact ⟨hc, hc, rfl, rfl⟩
  · cases h

theorem decodeResponse (r : Frame3) : Statement (.decodeResponse r) := by
  intro w h
  obtain rfl := Option.some.inj h
  exact ⟨rfl, rfl, rfl, rfl⟩

theorem readChannel (c : Int) : Statement (.readChannel c) := by
  intro w h
  simp only [encode, Machine.encodeCommand] at h
  split at h <;> rename_i hc
  · obtain rfl := Option.some.inj h
    exact ⟨rfl, hc, rfl, rfl⟩
  · cases h

end Sys2Proof.Laws.EncodeShape
end

