-- ==== Sys2Proof/Laws/Step.lean ====
section
/-! SUPPORT. What a step can do, said once: an operation that ends with a value, an exchange invoked by itself, a
request, or an answer. -/

namespace Sys2Proof.Machine

/-- If `exec` answers next, the operation ended with a value and did nothing else, or it was EXCHANGE or
READ_CHANNEL. -/
theorem exec_next_cases {i : Instr} {s s' : State} (h : exec i s = .next s') :
    (∃ v, s' = s.endWith v) ∨
    (∃ cmd, i = .exchange cmd ∧ execExchange cmd s = .next s') ∨
    (∃ c, i = .readChannel c ∧ execReadChannel c s = .next s') := by
  cases i with
  | validate c => injection h with h; exact .inl ⟨_, h.symm⟩
  | buildConfig ch => injection h with h; exact .inl ⟨_, h.symm⟩
  | packCommand config => injection h with h; exact .inl ⟨_, h.symm⟩
  | encodeCommand c =>
    simp only [exec, execEncodeCommand_eq] at h
    injection h with h
    exact .inl ⟨_, h.symm⟩
  | exchange cmd => exact .inr (.inl ⟨cmd, rfl, h⟩)
  | decodeResponse r => injection h with h; exact .inl ⟨_, h.symm⟩
  | readChannel c => exact .inr (.inr ⟨c, rfl, h⟩)

/-- If a step answers next, it ran an operation invoked by itself, took a request, or took an answer. -/
theorem step_next_cases {s s' : State} (h : step s = .next s') :
    (∃ inv i, s.invoked = some inv ∧ inv.instr = .ok i ∧ exec i { s with invoked := none } = .next s') ∨
    (s.invoked = none ∧ s.fault = none ∧ ∃ r rest, s.req = r :: rest ∧
      (s.phase = .idle ∨ (r.early = true ∧ ∃ cmd, s.phase = .exchanging cmd)) ∧
      execReadChannel r.channel { s with req := rest } = .next s') ∨
    (s.invoked = none ∧ s.fault = none ∧ s.nextIsEarly = false ∧ ∃ cmd a rest,
      s.phase = .exchanging cmd ∧ s.xin = a :: rest ∧ s' = State.answer { s with xin := rest } a) := by
  unfold step State.fetch at h
  cases hi : s.invoked with
  | some inv =>
    cases hd : inv.instr with
    | error e => simp [hi, hd] at h
    | ok i =>
      simp only [hi, hd] at h
      exact .inl ⟨inv, i, rfl, hd, h⟩
  | none =>
    cases hf : s.fault with
    | some r => cases r; simp [hi, hf] at h
    | none =>
      cases hp : s.phase with
      | idle =>
        cases hr : s.req with
        | nil => simp [hi, hf, hp, hr, State.fetchRequest] at h
        | cons r rest =>
          simp only [hi, hf, hp, hr, State.fetchRequest, exec] at h
          exact .inr (.inl ⟨rfl, rfl, r, rest, rfl, .inl rfl, h⟩)
      | exchanging cmd =>
        cases he : s.nextIsEarly with
        | true =>
          cases hr : s.req with
          | nil => simp [State.nextIsEarly, hr] at he
          | cons r rest =>
            have her : r.early = true := by simpa [State.nextIsEarly, hr] using he
            simp only [hi, hf, hp, he, hr, State.fetchRequest, exec, if_true] at h
            exact .inr (.inl ⟨rfl, rfl, r, rest, rfl, .inr ⟨her, cmd, rfl⟩, h⟩)
        | false =>
          cases hx : s.xin with
          | nil => simp [hi, hf, hp, he, hx, State.fetchAnswer] at h
          | cons a rest =>
            simp only [hi, hf, hp, he, hx, State.fetchAnswer, Bool.false_eq_true, if_false] at h
            injection h with h
            exact .inr (.inr ⟨rfl, rfl, rfl, cmd, a, rest, rfl, rfl, h.symm⟩)

end Sys2Proof.Machine
end

