-- ==== Sys2Proof/Tests/Slice0.lean ====
section
/-! SUPPORT. Tests from the vectors of spec/95_test_vectors.md and the tables of spec/, each on one step or less, and a
witness for the hypotheses of each statement. -/

namespace Sys2Proof.Tests

open Sys2Proof.Machine

/-- The next state of an outcome. -/
def next? : Host.Outcome State Fault Refusal → Option State
  | .next s => some s
  | _ => none

/-- The command frames of channels 1 and 3 (R51). -/
def frame1 : Frame3 := ⟨0x06#8, 0x40#8, 0x00#8⟩
def frame3 : Frame3 := ⟨0x06#8, 0xC0#8, 0x00#8⟩

/-- A frame with START and SGL = 0, which the block never emits (R53). -/
def differential : Frame3 := ⟨0x04#8, 0x00#8, 0x00#8⟩

/-- After a request of channel 3 from reset (95_test_vectors.md 2.7). -/
def waiting : State :=
  { State.reset with phase := .exchanging frame3, log := [.req 3, .xfer frame3], xout := [frame3] }

/-- After EXCHANGE by itself with channel 3's frame. -/
def invokerWaiting : State :=
  { State.reset with phase := .exchanging frame3, log := [.xfer frame3], xout := [frame3], awaiting := .invoker }

/-- After an overlapping request of channel 2 (95_test_vectors.md P5, with channel 3's frame in flight). -/
def faulted : State :=
  { waiting with log := [.req 3, .xfer frame3, .req 2], fault := some .overlappingRequest }

/-- A failure's payload. -/
def err : TErr := .first

/-- Waiting, with a failure to come. -/
def failing : State := { waiting with xin := [.error err] }

/-- Waiting, with a request the caller sends early. -/
def overlapping : State := { waiting with req := [⟨2, true⟩] }

/-- Faulted, with VALIDATE invoked by itself. -/
def faultedInvoked : State := { faulted with invoked := some (.operation (.validate 8)) }

/-- Idle, with a request of `c` and an answer to come. -/
def requested (c : Int) : State :=
  { State.reset with req := [⟨c, false⟩], xin := [.frame frame1] }

/-! ## Well-formedness -/

theorem test_wellFormed_refuses_differential : (Instr.exchange differential).wellFormed = false := by decide
theorem test_wellFormed_takes_command : (Instr.exchange frame3).wellFormed = true := by decide
theorem test_hasWords_refuses_validate : (Instr.validate 0).hasWords = false := by decide
theorem test_hasWords_refuses_other_config : (Instr.packCommand 0x0B#8).hasWords = false := by decide
theorem test_hasWords_refuses_invalid_encode : (Instr.encodeCommand 8).hasWords = false := by decide
theorem test_hasWords_refuses_differential : (Instr.exchange differential).hasWords = false := by decide
theorem test_hasWords_refuses_invalid_read : (Instr.readChannel (-1)).hasWords = false := by decide

/-! ## Decoding: words written out from R43, R45, R46 -/

theorem test_decode_buildConfig : decode ⟨.buildConfig, [0b00011110#8]⟩ = .ok (.buildConfig 6#3) := rfl
theorem test_decode_packCommand :
    decode ⟨.packCommand, [0b00000111#8, 0b10000000#8, 0x00#8]⟩ = .ok (.packCommand 0x1E#8) := rfl
theorem test_decode_encodeCommand :
    decode ⟨.encodeCommand, [0b00000110#8, 0b11000000#8, 0x00#8]⟩ = .ok (.encodeCommand 3) := rfl
theorem test_decode_exchange :
    decode ⟨.exchange, [0b00000110#8, 0b11000000#8, 0x00#8]⟩ = .ok (.exchange frame3) := rfl
theorem test_decode_decodeResponse :
    decode ⟨.decodeResponse, [0xAB#8, 0xCD#8, 0xEF#8]⟩ = .ok (.decodeResponse ⟨0xAB#8, 0xCD#8, 0xEF#8⟩) := rfl
theorem test_decode_readChannel :
    decode ⟨.readChannel, [0b00000111#8, 0b01000000#8, 0x00#8]⟩ = .ok (.readChannel 5) := rfl
theorem test_decode_validate : decode ⟨.validate, []⟩ = .error .noEncoding := rfl
theorem test_decode_not_cfg8 : decode ⟨.buildConfig, [0b00001110#8]⟩ = .error .notCfg8 := rfl
theorem test_decode_differential : decode ⟨.readChannel, [0x04#8, 0x00#8, 0x00#8]⟩ = .error .notCmd24 := rfl
theorem test_decode_short : decode ⟨.exchange, [0x06#8, 0x00#8]⟩ = .error .wrongLength := rfl
theorem test_decode_long : decode ⟨.decodeResponse, [0#8, 0#8, 0#8, 0#8]⟩ = .error .wrongLength := rfl

/-- The table's numbering (R28): row ENCODE_COMMAND, `c` in bits 16:14. -/
theorem test_tableWord_encodeCommand : decodeTableWord 24 0x074000 = some (.encodeCommand 5) := by decide
theorem test_tableWord_buildConfig : decodeTableWord 8 0x1D = some (.buildConfig 5#3) := by decide
theorem test_tableWord_decodeResponse :
    decodeTableWord 24 0x000AFF = some (.decodeResponse ⟨0x00#8, 0x0A#8, 0xFF#8⟩) := by decide
theorem test_tableWord_reserved_config : decodeTableWord 8 0x0B = none := by decide

/-- The step after reset runs the word placed. -/
theorem test_withFetchWord_runs :
    (next? (step (State.reset.withFetchWord 24 0x07C000))).map State.returns =
      some [.frame ⟨0x07#8, 0xC0#8, 0x00#8⟩] := by decide

/-! ## The operations: 95_test_vectors.md 2.1 to 2.6 -/

theorem test_validate_no_alias : validate (-8) = false ∧ validate 15 = false ∧ validate 16 = false := by decide
theorem test_validate_bounds :
    validate (-1) = false ∧ validate 0 = true ∧ validate 7 = true ∧ validate 8 = false := by decide
theorem test_buildConfig_five : buildConfig 5#3 = 0x1D#8 := by decide
theorem test_buildConfig_top : buildConfig 7#3 = 0x1F#8 := by decide
theorem test_packCommand_ones : packCommand 0xFF#8 = ⟨0x07#8, 0xC0#8, 0x00#8⟩ := by decide
theorem test_packCommand_sglOnly : packCommand 0x0B#8 = ⟨0x02#8, 0xC0#8, 0x00#8⟩ := by decide
theorem test_encodeCommand_five : encodeCommand 5 = some ⟨0x07#8, 0x40#8, 0x00#8⟩ := by decide
theorem test_encodeCommand_no_alias : encodeCommand 8 = none ∧ encodeCommand 16 = none := by decide
theorem test_decodeResponse_source : (decodeResponse ⟨0x00#8, 0x0A#8, 0xFF#8⟩).toNat = 2815 := by decide
theorem test_decodeResponse_mixed : (decodeResponse ⟨0xAB#8, 0xCD#8, 0xEF#8⟩).toNat = 3567 := by decide
theorem test_readChannel_source :
    readChannel (E := TErr) (fun _ => .frame ⟨0x00#8, 0x0A#8, 0xFF#8⟩) 0 = .ok 2815#12 := by decide
theorem test_readChannel_failure :
    readChannel (fun _ => .error "BusNotReady") 4 = .transportError "BusNotReady" := rfl
theorem test_readChannel_invalid_first : readChannel (fun _ => .error err) 9 = .invalidChannel := by decide

/-- EXCHANGE by itself returns the frame the transport answers (R72's example answer). -/
theorem test_exchange_returns :
    (next? (step { invokerWaiting with xin := [.frame ⟨0x00#8, 0x03#8, 0xE8#8⟩] })).map
        (fun s => (s.returns, s.phase, s.rsp)) =
      some ([.frame ⟨0x00#8, 0x03#8, 0xE8#8⟩], .idle, []) := by decide
theorem test_exchange_raises :
    (next? (step { invokerWaiting with xin := [.error err] })).map (fun s => (s.returns, s.log)) =
      some ([.transportError err], [.xfer frame3, .xferErr err]) := rfl

/-! ## The step relation: 95_test_vectors.md 2.7 -/

theorem test_step_invalid :
    (next? (step { State.reset with req := [⟨-1, false⟩] })).map (fun s => (s.log, s.rsp, s.phase)) =
      some ([.req (-1), .done .invalidChannel], [.invalidChannel], .idle) := by decide
theorem test_step_valid :
    next? (step { State.reset with req := [⟨3, false⟩] }) = some waiting := by decide
theorem test_step_answer :
    (next? (step { waiting with xin := [.frame ⟨0x00#8, 0x00#8, 0x01#8⟩] })).map (fun s => (s.rsp, s.phase)) =
      some ([.ok 1#12], .idle) := by decide
theorem test_step_overlap :
    next? (step { waiting with req := [⟨2, true⟩], xin := [.error err] }) =
      some { faulted with xin := [.error err] } := rfl
theorem test_step_waits_for_result :
    (next? (step { waiting with req := [⟨2, false⟩], xin := [.error err] })).map (fun s => (s.rsp, s.fault)) =
      some ([.transportError err], none) := rfl
theorem test_step_faulted : step { faulted with xin := [.error err] } = .fault .overlappingRequest := rfl
theorem test_step_idle_ignores_xin : step { State.reset with xin := [.error err] } = .fault .noRequest := rfl
theorem test_step_stuck : step waiting = .fault .noAnswer := rfl

/-- Bit periods 5 to 9 of channel 5's frame (R108): START, SGL, D2, D1, D0. -/
theorem test_wire_command :
    ([5, 6, 7, 8, 9] : List (Fin 24)).map (wireBit (packCommand 0x1D#8)) = [true, true, true, false, true] := by
  decide

/-! ## Witnesses: a state and operands that meet the hypotheses of each statement, and of each of its clauses at the
ends of its range. -/

theorem witness_EncodeCommandResult :
    ((-1 : Int) < 0 ∨ 7 < (-1 : Int)) ∧ ((8 : Int) < 0 ∨ 7 < (8 : Int)) ∧ (0 ≤ (0 : Int) ∧ (0 : Int) ≤ 7) ∧
      (0 ≤ (7 : Int) ∧ (7 : Int) ≤ 7) := by decide

theorem witness_EncodeCommandClosedForm : (0 : Nat) ≤ 7 ∧ (7 : Nat) ≤ 7 := by decide

theorem witness_EncodeCommandInjective :
    encodeCommand 3 = some frame3 ∧ encodeCommand 7 = some ⟨0x07#8, 0xC0#8, 0x00#8⟩ ∧ ((8 : Int) < 0 ∨ 7 < (8 : Int)) := by
  decide

theorem witness_DecodeIgnoresTwelveBits :
    (0x0A#8 &&& 0x0F#8 = 0xFA#8 &&& 0x0F#8) ∧ (0xFF#8 : Byte) = 0xFF#8 := by decide

theorem witness_DecodeIsBijectiveOnItsBits :
    decodeResponse ⟨0x00#8, 0x0#4 ++ 0xA#4, 0xFF#8⟩ = decodeResponse ⟨0x5A#8, 0x5#4 ++ 0xA#4, 0xFF#8⟩ := by decide

theorem witness_PureOperationsFrame :
    (∀ cmd, Instr.validate 0 ≠ .exchange cmd) ∧ ∀ c, Instr.validate 0 ≠ .readChannel c :=
  ⟨fun _ h => Instr.noConfusion h, fun _ h => Instr.noConfusion h⟩

theorem witness_StepRunsTheDecodedOperation :
    (State.reset.withFetchWord 8 0x18).invoked = some (.words ⟨.buildConfig, [0x18#8]⟩) ∧
      decode ⟨.buildConfig, [0x18#8]⟩ = .ok (.buildConfig 0#3) ∧
      ({ State.reset with invoked := some (.operation (.validate 8)) } : State).invoked =
        some (.operation (.validate 8)) ∧
      (State.reset.withFetchWord 8 0x0B).invoked = some (.words ⟨.buildConfig, [0x0B#8]⟩) ∧
      decode ⟨.buildConfig, [0x0B#8]⟩ = .error .notCfg8 := ⟨rfl, rfl, rfl, rfl, rfl⟩

theorem witness_WireOrder :
    (0 : Fin 24).val = 8 * (0 : Fin 3).val + (7 - (7 : Fin 8).val) ∧
      (23 : Fin 24).val = 8 * (2 : Fin 3).val + (7 - (0 : Fin 8).val) := by decide

theorem witness_BitPeriodTimeline :
    sampleBitIn 12 = some 11 ∧ sampleBitIn 23 = some 0 ∧ (11 : Fin 24).val < 12 ∧ 12 ≤ (12 : Fin 24).val ∧
      ∀ k : Fin 24, 12 ≤ k.val →
        wireBit ⟨0xFF#8, 0xFA#8, 0xFF#8⟩ k = wireBit ⟨0x00#8, 0x0A#8, 0xFF#8⟩ k := by decide

theorem witness_ChannelPortHasNoAlias :
    Config.channelInMinWidth ≤ 5 ∧ validate (channelOfPort 7#5) = true ∧ validate (channelOfPort 8#5) = false ∧
      validate (channelOfPort 31#5) = false := by decide

theorem witness_ExchangeStarts :
    isCmd24 frame3 = true ∧ State.reset.fault = none ∧ State.reset.phase = .idle := by decide

/-- EXCHANGE invoked by itself, with the answers `xin` to come. -/
def invokedExchange (xin : List (Answer TErr)) : State :=
  { State.reset with invoked := some (.operation (.exchange frame3)), xin := xin }

theorem witness_ExchangeRunsToItsAnswer :
    isCmd24 frame3 = true ∧ (invokedExchange []).fault = none ∧ (invokedExchange []).phase = .idle ∧
      (invokedExchange []).awaiting = .caller ∧
      (invokedExchange []).invoked = some (.operation (.exchange frame3)) ∧
      (invokedExchange []).nextIsEarly = false ∧ (invokedExchange []).xin = [] ∧
      (invokedExchange [.frame frame1]).xin = .frame frame1 :: [] ∧
      (invokedExchange [.error err]).xin = .error err :: [] :=
  ⟨by decide, rfl, rfl, rfl, rfl, rfl, rfl, rfl, rfl⟩

theorem witness_ExchangeRefusesReservedFrames : ∀ c : Int, encodeCommand c ≠ some differential := by
  intro c h
  have hc := validate_eq_true_iff.1 (encodeCommand_eq_some_iff.1 h).1
  obtain ⟨h0, h7⟩ := hc
  interval_cases c <;> exact absurd h (by decide)

theorem witness_ExchangeDuringExchange :
    isCmd24 frame1 = true ∧ waiting.phase = .exchanging frame3 ∧ waiting.fault = none ∧
      faulted.phase = .exchanging frame3 ∧ faulted.fault = some .overlappingRequest := by decide

theorem witness_ReadChannelFunction :
    ((8 : Int) < 0 ∨ 7 < (8 : Int)) ∧ (0 ≤ (7 : Int) ∧ (7 : Int) ≤ 7) ∧
      (fun _ : Frame3 => (Answer.frame frame1 : Answer TErr)) frame3 = .frame frame1 ∧
      (fun _ : Frame3 => Answer.error err) frame3 = .error err := ⟨by decide, by decide, rfl, rfl⟩

theorem witness_RequestInvalidStep :
    State.reset.fault = none ∧ State.reset.phase = .idle ∧ ((-1 : Int) < 0 ∨ 7 < (-1 : Int)) ∧
      ((8 : Int) < 0 ∨ 7 < (8 : Int)) := by decide

theorem witness_RequestValidStep :
    State.reset.fault = none ∧ State.reset.phase = .idle ∧ 0 ≤ (0 : Int) ∧ (7 : Int) ≤ 7 := by decide

theorem witness_AnswerFrameStep :
    ∃ s : State, s.invoked = none ∧ s.fault = none ∧ s.phase = .exchanging frame3 ∧ s.awaiting = .caller ∧
      s.nextIsEarly = false ∧ s.xin = .frame frame1 :: [] :=
  ⟨{ waiting with xin := [.frame frame1] }, by decide⟩

theorem witness_AnswerErrorStep :
    ∃ s : State, s.invoked = none ∧ s.fault = none ∧ s.phase = .exchanging frame3 ∧ s.awaiting = .caller ∧
      s.nextIsEarly = false ∧ s.xin = .error err :: [] :=
  ⟨failing, rfl, rfl, rfl, rfl, rfl, rfl⟩

theorem witness_RequestOverlapStep : waiting.fault = none ∧ waiting.phase = .exchanging frame3 := by decide

theorem witness_EnabledSteps_faulted : faulted.invoked = none ∧ faulted.fault ≠ none := by decide

theorem witness_EnabledSteps_idle :
    State.reset.invoked = none ∧ State.reset.fault = none ∧ State.reset.phase = .idle ∧ State.reset.req = [] := by
  decide

theorem witness_EnabledSteps_request :
    (requested 8).invoked = none ∧ (requested 8).fault = none ∧ (requested 8).phase = .idle ∧
      (requested 8).req = ⟨8, false⟩ :: [] := by decide

theorem witness_EnabledSteps_early :
    overlapping.invoked = none ∧ overlapping.fault = none ∧ overlapping.phase = .exchanging frame3 ∧
      overlapping.req = ⟨2, true⟩ :: [] ∧ (⟨2, true⟩ : Request).early = true := by decide

theorem witness_EnabledSteps_stuck :
    waiting.invoked = none ∧ waiting.fault = none ∧ waiting.phase = .exchanging frame3 ∧
      waiting.nextIsEarly = false ∧ waiting.xin = [] := by decide

theorem witness_EnabledSteps_answer :
    failing.invoked = none ∧ failing.fault = none ∧ failing.phase = .exchanging frame3 ∧
      failing.nextIsEarly = false ∧ failing.xin = .error err :: [] := ⟨rfl, rfl, rfl, rfl, rfl⟩

theorem witness_StepsAgreeWithReadChannel :
    (requested 7).invoked = none ∧ (requested 7).fault = none ∧ (requested 7).phase = .idle ∧
      (requested 7).req = ⟨7, false⟩ :: [] ∧ (requested 7).xin = .frame frame1 :: [] ∧
      State.nextIsEarly { requested 7 with req := [] } = false ∧ validate 7 = true ∧ validate 8 = false := by decide

theorem witness_ErrorsAreDeliveredExactly :
    (requested 8).invoked = none ∧ (requested 8).awaiting = .caller ∧ ∃ t, step (requested 8) = .next t ∧
      t.rsp = [.invalidChannel] := ⟨rfl, rfl, _, rfl, rfl⟩

theorem witness_ErrorsAreDeliveredExactly_transport :
    failing.invoked = none ∧ failing.awaiting = .caller ∧ ∃ t, step failing = .next t ∧
      t.rsp = [.transportError err] := ⟨rfl, rfl, _, rfl, rfl⟩

theorem witness_TransactionFrame :
    (∃ t, exec (.exchange frame3) State.reset = .next t ∧ t.xout ≠ State.reset.xout) ∧
      (∃ t, exec (.readChannel 8) State.reset = .next t ∧ t.rsp ≠ State.reset.rsp) ∧
      ∃ t, exec (.readChannel 2) waiting = .next t ∧ t.fault ≠ waiting.fault :=
  ⟨⟨_, rfl, by decide⟩, ⟨_, rfl, by decide⟩, ⟨_, rfl, by decide⟩⟩

theorem witness_StepRefinesTheRules :
    (requested 7).invoked = none ∧ (requested 7).awaiting = .caller ∧ ∃ t, step (requested 7) = .next t :=
  ⟨rfl, rfl, _, rfl⟩

theorem witness_RulesAreSteps :
    State.reset.invoked = none ∧ State.reset.awaiting = .caller ∧
      ∃ b, StepRule (.req 8) State.reset.block b :=
  ⟨rfl, rfl, _, .requestInvalid _ 8 rfl rfl rfl⟩

theorem witness_StepKeepsSerial :
    failing.Serial ∧ ∃ t, step failing = .next t :=
  ⟨⟨rfl, rfl, .exchanging frame3, rfl, by decide⟩, _, rfl⟩

theorem witness_TransactionsAreTotallyOrdered :
    waiting.Serial ∧ waiting.fault = none ∧ waiting.phase ≠ .idle ∧ State.reset.Serial ∧
      State.reset.fault = none ∧ State.reset.phase = .idle :=
  ⟨⟨rfl, rfl, .exchanging frame3, rfl, by decide⟩, rfl, by decide, ⟨rfl, rfl, .between, rfl, rfl⟩, rfl, rfl⟩

theorem witness_IdleStatesAreFinal : faulted.Serial :=
  ⟨rfl, rfl, .overlapped frame3, rfl, by decide⟩

theorem witness_StepKeepsPortsAgree :
    failing.PortsAgree ∧ ∃ t, step failing = .next t := ⟨⟨rfl, rfl⟩, _, rfl⟩

theorem witness_StepKeepsCommandsOnly :
    failing.CommandsOnly ∧ ∃ t, step failing = .next t := by
  refine ⟨⟨by decide, ?_⟩, _, rfl⟩
  intro cmd h
  injection h with h
  exact congrArg some h

theorem witness_StepKeepsIdleHoldsNothing :
    (requested 7).IdleHoldsNothing ∧ (requested 7).phase = .idle ∧ (∃ t, step (requested 7) = .next t) ∧
      failing.IdleHoldsNothing ∧ ∃ t, step failing = .next t ∧ t.phase = .idle :=
  ⟨fun _ => rfl, rfl, ⟨_, rfl⟩, fun _ => rfl, _, rfl, rfl⟩

theorem witness_HistoryIsAppendOnly : ∃ t, step (requested 7) = .next t := ⟨_, rfl⟩

theorem witness_FaultIsSticky :
    faultedInvoked.fault ≠ none ∧ ∃ t, step faultedInvoked = .next t := ⟨by decide, _, rfl⟩

theorem witness_FaultOnlyInFlight :
    ∃ t, step overlapping = .next t ∧ overlapping.fault = none ∧ t.fault ≠ none := ⟨_, rfl, rfl, by decide⟩

theorem witness_ExchangeIsNotAborted :
    failing.phase = .exchanging frame3 ∧ (∃ t, step failing = .next t) ∧
      overlapping.phase = .exchanging frame3 ∧ ∃ t, step overlapping = .next t := ⟨rfl, ⟨_, rfl⟩, rfl, _, rfl⟩

theorem witness_AfterAResultIdle :
    ∃ t, step failing = .next t ∧ t.rsp ≠ failing.rsp := ⟨_, rfl, by decide⟩

theorem witness_IgnoredBitsNeverMatter :
    State.alike { waiting with xin := [.frame ⟨0x00#8, 0x0A#8, 0xFF#8⟩] }
        { waiting with xin := [.frame ⟨0xFF#8, 0xFA#8, 0xFF#8⟩] } ∧
      ∃ t, step { waiting with xin := [.frame ⟨0x00#8, 0x0A#8, 0xFF#8⟩] } = .next t :=
  ⟨⟨rfl, rfl, rfl, .cons ⟨rfl, rfl⟩ .nil, rfl, rfl, rfl, rfl⟩, _, rfl⟩

theorem witness_ScriptsRunToTheirEndState :
    State.reset.invoked = none ∧ State.reset.fault = none ∧ State.reset.phase = .idle ∧
      2 * (⟨[0, 8], [.error err]⟩ : Script TErr).program.length ≤ 4 := by decide

theorem witness_PayloadIsOpaque :
    ∃ b' : Block String, StepRule (.xin (.error "BusNotReady")) ⟨.exchanging frame3, none, [], [], []⟩ b' :=
  ⟨_, .answerError _ frame3 _ rfl rfl⟩

theorem witness_InstancesAreIndependent :
    ∃ blocks, stepInstance 1 [State.reset, requested 8] = .next blocks := ⟨_, rfl⟩

end Sys2Proof.Tests
end

section
/-! PROOFS. The scope statements (00_scope.md section 3): the channel port of rule R7 and the constants of rule R6. -/

namespace Sys2Proof.Machine

/-! ## The channel port (R7, D2) -/

/-- Half the patterns of a port of the least width are 16: the numbers -16 to 15 can be presented. -/
theorem sixteen_le_two_pow_of_minWidth {n : Nat} (hn : Config.channelInMinWidth ≤ n) : 16 ≤ 2 ^ (n - 1) := by
  have hexp : 4 ≤ n - 1 := Nat.sub_le_sub_right hn 1
  exact Nat.pow_le_pow_right Nat.two_pos hexp

/-- A port of at least the least width presents every number from -16 to 15. -/
theorem exists_channelOfPort_eq {n : Nat} (hn : Config.channelInMinWidth ≤ n) {c : Int}
    (hlo : -16 ≤ c) (hhi : c < 16) : ∃ v : BitVec n, channelOfPort v = c := by
  have hpos : 0 < n := Nat.lt_of_lt_of_le (by decide) hn
  have hpow : (16 : Int) ≤ 2 ^ (n - 1) := mod_cast sixteen_le_two_pow_of_minWidth hn
  exact ⟨BitVec.ofInt n c, BitVec.toInt_ofInt_eq_self hpos (by omega) (by omega)⟩

/-- On such a port the patterns of the valid channels are the numbers 0 to 7 themselves: a pattern from 8 up is either
a number above 7 or, with the sign bit set, a negative one. -/
theorem validate_channelOfPort_iff {n : Nat} (hn : Config.channelInMinWidth ≤ n) (v : BitVec n) :
    validate (channelOfPort v) = true ↔ v.toNat ≤ 7 := by
  have hpow : 16 ≤ 2 ^ n :=
    (sixteen_le_two_pow_of_minWidth hn).trans (Nat.pow_le_pow_right (by decide) (Nat.sub_le n 1))
  rw [validate_eq_true_iff, channelOfPort]
  constructor
  · rintro ⟨hnonneg, hle⟩
    have hval : v.toInt = v.toNat := BitVec.toInt_eq_toNat_of_lt (BitVec.toInt_pos_iff.1 hnonneg)
    omega
  · intro hle
    have hval : v.toInt = v.toNat := BitVec.toInt_eq_toNat_of_lt (by omega)
    omega

/-- Settles O23: -1 and 8 lie in the range that every such port presents, and no pattern aliases a valid channel. -/
theorem channelPortHasNoAlias : Obligations.ChannelPortHasNoAlias := by
  intro n hn
  exact ⟨exists_channelOfPort_eq hn (by decide) (by decide), exists_channelOfPort_eq hn (by decide) (by decide),
    validate_channelOfPort_iff hn⟩

/-! ## The constants (R6) -/

/-- Format CFG8 (R43): start bit, mode bit and channel, side by side. -/
theorem buildConfig_eq_append (ch : Channel) : buildConfig ch = 0b00011#5 ++ ch := by
  revert ch
  decide

theorem buildConfig_getLsbD_startBit (ch : Channel) : (buildConfig ch).getLsbD Config.startBitPos = true := by
  rw [buildConfig_eq_append, BitVec.getLsbD_append]
  rfl

theorem buildConfig_getLsbD_sglBit (ch : Channel) : (buildConfig ch).getLsbD Config.sglBitPos = true := by
  rw [buildConfig_eq_append, BitVec.getLsbD_append]
  rfl

theorem validate_iff_lt_nChannels (c : Int) : validate c = true ↔ 0 ≤ c ∧ c < (Config.nChannels : Int) := by
  rw [validate_eq_true_iff, Config.nChannels]
  omega

/-- One exchange for a valid call, none for an invalid one (C1). -/
theorem transportCalls_eq (c : Int) : transportCalls c = if 0 ≤ c ∧ c ≤ 7 then 1 else 0 := by
  simp only [transportCalls, validate_eq_true_iff, Config.exchangesPerValidCall, Config.exchangesPerInvalidCall]

theorem bitPeriods_length (out resp : Frame3) : (bitPeriods out resp).length = Config.frameBits :=
  List.length_ofFn

/-- No answer is followed by another frame, so there is no retry. -/
theorem State.answer_xout_length (s : State) (a : Answer TErr) :
    (s.answer a).xout.length = s.xout.length + Config.retries := by
  rw [State.answer_xout, Config.retries, Nat.add_zero]

/-- Settles O3, constant by constant: the channels, the configuration value, the frames and the exchanges. -/
theorem parametersGovernTheOperations : Obligations.ParametersGovernTheOperations :=
  ⟨validate_iff_lt_nChannels, rfl,
    fun ch => ⟨(buildConfig ch).isLt, buildConfig_getLsbD_startBit ch, buildConfig_getLsbD_sglBit ch⟩,
    fun _ => rfl, bitPeriods_length, fun r => (decodeResponse r).isLt, transportCalls_eq, State.answer_xout_length⟩

end Sys2Proof.Machine
end

section
/-! PROOFS. The state (10_state.md): reset meets the invariants, every step keeps the ports equal to the log, `Idle`
empty and the history as it was, and the fault is sticky. -/

namespace Sys2Proof.Machine

/-! ## What a step does to the block

`step_next_cases` says where a step comes from; here the same steps are told by what they do. -/

/-- What a step does to the state `u` in which its invocation, request or answer has been taken. -/
inductive StepEffect (u : State) : State → Prop
  /-- An operation invoked by itself ends with a value, in every phase and also with the fault set (log 4). -/
  | ends (v : Returned TErr) : StepEffect u (u.endWith v)
  /-- EXCHANGE invoked by itself (R72). -/
  | invokes (cmd : Frame3) : u.fault = none → u.phase = .idle → isCmd24 cmd = true →
      StepEffect u (u.startExchange .invoker cmd)
  /-- EXCHANGE invoked by itself during an exchange (R105, log 9). -/
  | invokesOverlap (other : Frame3) : u.fault = none → u.phase = .exchanging other → StepEffect u u.recordOverlap
  /-- `Request-Invalid` (R74). -/
  | requestInvalid (c : Int) : u.fault = none → u.phase = .idle → encodeCommand c = none →
      StepEffect u ((u.emit (.req c)).deliver .invalidChannel)
  /-- `Request-Valid` (R75). -/
  | requestValid (c : Int) (cmd : Frame3) : u.fault = none → u.phase = .idle → encodeCommand c = some cmd →
      StepEffect u ((u.emit (.req c)).startExchange .caller cmd)
  /-- `Request-Overlap` (R78). -/
  | requestOverlap (c : Int) (cmd : Frame3) : u.fault = none → u.phase = .exchanging cmd →
      StepEffect u (u.emit (.req c)).recordOverlap
  /-- The transport's answer (R72, R76, R77). -/
  | answers (a : Answer TErr) (cmd : Frame3) : u.fault = none → u.phase = .exchanging cmd →
      StepEffect u (u.answer a)

theorem execExchange_next_effect {cmd : Frame3} {u t : State} (h : execExchange cmd u = .next t) :
    StepEffect u t := by
  obtain ⟨hc, hf, ⟨hp, rfl⟩ | ⟨other, hp, rfl⟩⟩ := execExchange_next_cases h
  · exact .invokes cmd hf hp hc
  · exact .invokesOverlap other hf hp

theorem execReadChannel_next_effect {c : Int} {u t : State} (h : execReadChannel c u = .next t) :
    StepEffect u t := by
  obtain ⟨hf, ⟨hp, he, rfl⟩ | ⟨cmd, hp, he, rfl⟩ | ⟨cmd, hp, rfl⟩⟩ := execReadChannel_next_cases h
  · exact .requestInvalid c hf hp he
  · exact .requestValid c cmd hf hp he
  · exact .requestOverlap c cmd hf hp

theorem exec_next_effect {i : Instr} {u t : State} (h : exec i u = .next t) : StepEffect u t := by
  obtain ⟨v, rfl⟩ | ⟨cmd, -, h⟩ | ⟨c, -, h⟩ := exec_next_cases h
  · exact .ends v
  · exact execExchange_next_effect h
  · exact execReadChannel_next_effect h

/-- A step takes an invocation, a request or an answer, none of which is part of the block's own state, and then has
one of the effects. -/
theorem step_next_effect {s t : State} (h : step s = .next t) :
    ∃ invoked req xin, StepEffect { s with invoked := invoked, req := req, xin := xin } t := by
  obtain ⟨_, _, -, -, h⟩ | ⟨-, -, _, rest, -, -, h⟩ | ⟨-, hf, -, cmd, a, rest, hp, -, rfl⟩ := step_next_cases h
  · exact ⟨none, s.req, s.xin, exec_next_effect h⟩
  · exact ⟨s.invoked, rest, s.xin, execReadChannel_next_effect h⟩
  · exact ⟨s.invoked, s.req, rest, .answers a cmd hf hp⟩

/-! ## The messages on XOUT and RSP (R20, R22, R23) -/

theorem State.PortsAgree.emit {s : State} (h : s.PortsAgree) {e : Event TErr} (hsent : e.sent = none)
    (hdelivered : e.delivered = none) : (s.emit e).PortsAgree := by
  obtain ⟨hxout, hrsp⟩ := h
  constructor
  · simp [hxout, hsent]
  · simp [hrsp, hdelivered]

theorem State.PortsAgree.startExchange {s : State} (h : s.PortsAgree) (who : Awaiting) (cmd : Frame3) :
    (s.startExchange who cmd).PortsAgree := by
  obtain ⟨hxout, hrsp⟩ := h
  constructor
  · simp [hxout, Event.sent]
  · simp [hrsp, Event.delivered]

theorem State.PortsAgree.deliver {s : State} (h : s.PortsAgree) (r : Result TErr) :
    (s.deliver r).PortsAgree := by
  obtain ⟨hxout, hrsp⟩ := h
  constructor
  · simp [hxout, Event.sent]
  · simp [hrsp, Event.delivered]

theorem Answer.event_sent (a : Answer TErr) : a.event.sent = none := by
  cases a <;> rfl

theorem Answer.event_delivered (a : Answer TErr) : a.event.delivered = none := by
  cases a <;> rfl

/-- The answer's own event names no message; only a transaction's answer sends one. -/
theorem State.PortsAgree.answer {s : State} (h : s.PortsAgree) (a : Answer TErr) :
    (s.answer a).PortsAgree := by
  have hemit : (s.emit a.event).PortsAgree := h.emit a.event_sent a.event_delivered
  cases hw : s.awaiting with
  | caller => rw [State.answer_caller hw]; exact hemit.deliver a.result
  | invoker => rw [State.answer_invoker hw]; exact hemit

theorem StepEffect.portsAgree {u t : State} (h : StepEffect u t) (hu : u.PortsAgree) : t.PortsAgree := by
  cases h with
  | ends v => exact hu
  | invokes cmd => exact hu.startExchange .invoker cmd
  | invokesOverlap => exact hu
  | requestInvalid c => exact (hu.emit rfl rfl).deliver .invalidChannel
  | requestValid c cmd => exact (hu.emit rfl rfl).startExchange .caller cmd
  | requestOverlap c => exact hu.emit (e := .req c) rfl rfl
  | answers a => exact hu.answer a

/-- Settles O44: each effect of a step sends a message exactly where it logs the event that names it. -/
theorem stepKeepsPortsAgree : Obligations.StepKeepsPortsAgree := by
  intro s t hs hstep
  obtain ⟨_, _, _, heffect⟩ := step_next_effect hstep
  exact heffect.portsAgree hs

/-! ## Idle holds nothing (R18, log 6) -/

/-- An effect that ends in `Idle` left it alone, delivered `invalidChannel` in it, or is the answer, which leaves no one
waiting. -/
theorem StepEffect.idleHoldsNothing {u t : State} (h : StepEffect u t) (hu : u.IdleHoldsNothing) :
    t.IdleHoldsNothing := by
  intro hidle
  cases h with
  | ends v => exact hu hidle
  | invokes cmd => cases hidle
  | invokesOverlap => exact hu hidle
  | requestInvalid c _ hp => exact hu hp
  | requestValid c cmd => cases hidle
  | requestOverlap c => exact hu hidle
  | answers a => exact u.answer_awaiting a

/-- Settles O46, effect by effect. -/
theorem stepKeepsIdleHoldsNothing : Obligations.StepKeepsIdleHoldsNothing := by
  intro s t hs hstep
  obtain ⟨_, _, _, heffect⟩ := step_next_effect hstep
  exact heffect.idleHoldsNothing hs

/-! ## The history is append-only (R20) -/

/-- All that `s` has logged, sent and returned stands unchanged at the front of what `t` has. -/
def State.HistoryPrefix (s t : State) : Prop :=
  s.log <+: t.log ∧ s.xout <+: t.xout ∧ s.rsp <+: t.rsp ∧ s.returns <+: t.returns

theorem State.HistoryPrefix.trans {s t u : State} (hst : s.HistoryPrefix t) (htu : t.HistoryPrefix u) :
    s.HistoryPrefix u := by
  obtain ⟨hlog, hxout, hrsp, hreturns⟩ := hst
  obtain ⟨hlog', hxout', hrsp', hreturns'⟩ := htu
  exact ⟨hlog.trans hlog', hxout.trans hxout', hrsp.trans hrsp', hreturns.trans hreturns'⟩

theorem State.historyPrefix_emit (s : State) (e : Event TErr) : s.HistoryPrefix (s.emit e) :=
  ⟨List.prefix_append _ _, List.prefix_rfl, List.prefix_rfl, List.prefix_rfl⟩

theorem State.historyPrefix_startExchange (s : State) (who : Awaiting) (cmd : Frame3) :
    s.HistoryPrefix (s.startExchange who cmd) :=
  ⟨List.prefix_append _ _, List.prefix_append _ _, List.prefix_rfl, List.prefix_rfl⟩

theorem State.historyPrefix_deliver (s : State) (r : Result TErr) : s.HistoryPrefix (s.deliver r) :=
  ⟨List.prefix_append _ _, List.prefix_rfl, List.prefix_append _ _, List.prefix_rfl⟩

theorem State.historyPrefix_endWith (s : State) (v : Returned TErr) : s.HistoryPrefix (s.endWith v) :=
  ⟨List.prefix_rfl, List.prefix_rfl, List.prefix_rfl, List.prefix_append _ _⟩

theorem State.historyPrefix_recordOverlap (s : State) : s.HistoryPrefix s.recordOverlap :=
  ⟨List.prefix_rfl, List.prefix_rfl, List.prefix_rfl, List.prefix_rfl⟩

theorem State.historyPrefix_settle (s : State) : s.HistoryPrefix s.settle :=
  ⟨List.prefix_rfl, List.prefix_rfl, List.prefix_rfl, List.prefix_rfl⟩

theorem State.historyPrefix_answer (s : State) (a : Answer TErr) : s.HistoryPrefix (s.answer a) := by
  cases hw : s.awaiting with
  | caller =>
    rw [State.answer_caller hw]
    exact (s.historyPrefix_emit _).trans (State.historyPrefix_deliver _ _)
  | invoker =>
    rw [State.answer_invoker hw]
    exact ((s.historyPrefix_emit _).trans (State.historyPrefix_endWith _ _)).trans (State.historyPrefix_settle _)

theorem StepEffect.historyPrefix {u t : State} (h : StepEffect u t) : u.HistoryPrefix t := by
  cases h with
  | ends v => exact u.historyPrefix_endWith v
  | invokes cmd => exact u.historyPrefix_startExchange .invoker cmd
  | invokesOverlap => exact u.historyPrefix_recordOverlap
  | requestInvalid c => exact (u.historyPrefix_emit _).trans (State.historyPrefix_deliver _ _)
  | requestValid c cmd => exact (u.historyPrefix_emit _).trans (State.historyPrefix_startExchange _ _ _)
  | requestOverlap c => exact (u.historyPrefix_emit _).trans (State.historyPrefix_recordOverlap _)
  | answers a => exact u.historyPrefix_answer a

/-- Settles O47: every effect is made of operations that only append. -/
theorem historyIsAppendOnly : Obligations.HistoryIsAppendOnly := by
  intro s t hstep
  obtain ⟨_, _, _, heffect⟩ := step_next_effect hstep
  exact heffect.historyPrefix

/-! ## The sticky fault (R19) -/

theorem State.not_final_of_fault {s : State} (hfault : s.fault ≠ none) : ¬ s.Final := by
  rintro ⟨hnone, -, -⟩
  exact hfault hnone

/-- Every effect but the end of an operation invoked by itself needs a state without a fault, and that one leaves the
block alone. -/
theorem StepEffect.block_eq_of_fault {u t : State} (h : StepEffect u t) (hfault : u.fault ≠ none) :
    t.block = u.block := by
  cases h with
  | ends v => rfl
  | invokes _ hnone => exact absurd hnone hfault
  | invokesOverlap _ hnone => exact absurd hnone hfault
  | requestInvalid _ hnone => exact absurd hnone hfault
  | requestValid _ _ hnone => exact absurd hnone hfault
  | requestOverlap _ _ hnone => exact absurd hnone hfault
  | answers _ _ hnone => exact absurd hnone hfault

/-- Settles O48: a faulted state is not final, and no effect changes its block. -/
theorem faultIsSticky : Obligations.FaultIsSticky := by
  intro s hfault
  refine ⟨State.not_final_of_fault hfault, fun t hstep => ?_⟩
  obtain ⟨_, _, _, heffect⟩ := step_next_effect hstep
  exact heffect.block_eq_of_fault hfault

/-! ## Reset (R26, R99) -/

/-- The empty log stands between two transactions, as no fault and `Idle` say it must. -/
theorem State.reset_serial : State.reset.Serial :=
  ⟨rfl, rfl, .between, rfl, rfl⟩

theorem State.reset_commandsOnly : State.reset.CommandsOnly :=
  ⟨fun _ hmem => absurd hmem List.not_mem_nil, fun _ hphase => Phase.noConfusion hphase⟩

theorem State.reset_final : State.reset.Final :=
  ⟨rfl, rfl, trivial⟩

/-- Settles O2: the log and the ports are empty, and no one waits. -/
theorem resetMeetsInvariants : Obligations.ResetMeetsInvariants :=
  ⟨State.reset_serial, ⟨rfl, rfl⟩, State.reset_commandsOnly, fun _ => rfl, State.reset_final⟩

end Sys2Proof.Machine
end

section
/-! PROOFS. The data layout and the order of events (20_memory.md): the word view and the wire view of a frame (rules
R28, R29, R30), and the log as a sequence of transactions (rules R37, R39). -/

namespace Sys2Proof

/-! ## The word view of a frame (R28) -/

theorem Frame3.toNat_toWord (f : Frame3) :
    f.toWord.toNat = f.b0.toNat * 2 ^ 16 + f.b1.toNat * 2 ^ 8 + f.b2.toNat := by
  rw [Frame3.toWord, toNat_append_eq_add, toNat_append_eq_add]
  omega

theorem Frame3.eq_of_byte_eq {f g : Frame3} (h : ∀ i, f.byte i = g.byte i) : f = g := by
  cases f
  cases g
  obtain ⟨rfl, rfl, rfl⟩ : _ ∧ _ ∧ _ := ⟨h 0, h 1, h 2⟩
  rfl

theorem Frame3.byte_ofWord (w : Word24) (i : Fin 3) :
    (Frame3.ofWord w).byte i = w.extractLsb' (8 * (2 - i.val)) 8 := by
  match i with
  | 0 => rfl
  | 1 => rfl
  | 2 => rfl

/-- Byte 2 holds the eight least significant bits of the word, byte 1 the eight above them. -/
theorem Frame3.getLsbD_toWord (f : Frame3) (k : Nat) :
    f.toWord.getLsbD k =
      if k < 8 then f.b2.getLsbD k else if k - 8 < 8 then f.b1.getLsbD (k - 8) else f.b0.getLsbD (k - 8 - 8) :=
  (BitVec.getLsbD_append (x := f.b0 ++ f.b1)).trans (by rw [BitVec.getLsbD_append])

/-- Byte 0 is `W[23:16]`, byte 1 `W[15:8]` and byte 2 `W[7:0]`, read bit by bit. -/
theorem Frame3.getLsbD_toWord_byte (f : Frame3) (i : Fin 3) {j : Nat} (hj : j < 8) :
    f.toWord.getLsbD (8 * (2 - i.val) + j) = (f.byte i).getLsbD j := by
  rw [Frame3.getLsbD_toWord]
  match i with
  | 0 =>
    have hplace : 16 + j - 8 - 8 = j := by omega
    simp [Frame3.byte, hplace, show ¬ 16 + j < 8 by omega, show ¬ 16 + j - 8 < 8 by omega]
  | 1 => simp [Frame3.byte, hj]
  | 2 => simp [Frame3.byte, hj]

theorem Frame3.ofWord_toWord (f : Frame3) : Frame3.ofWord f.toWord = f := by
  refine Frame3.eq_of_byte_eq fun i => ?_
  rw [Frame3.byte_ofWord]
  refine BitVec.eq_of_getLsbD_eq fun j hj => ?_
  rw [BitVec.getLsbD_extractLsb', decide_eq_true hj, Bool.true_and, Frame3.getLsbD_toWord_byte f i hj]

/-- Every bit of a word is one of the bits of the three bytes taken from it. -/
theorem Frame3.toWord_ofWord (w : Word24) : (Frame3.ofWord w).toWord = w := by
  refine BitVec.eq_of_getLsbD_eq fun k hk => ?_
  obtain ⟨i, j, hj, rfl⟩ : ∃ (i : Fin 3) (j : Nat), j < 8 ∧ k = 8 * (2 - i.val) + j :=
    ⟨⟨2 - k / 8, by omega⟩, k % 8, by omega, by dsimp only; omega⟩
  rw [Frame3.getLsbD_toWord_byte _ i hj, Frame3.byte_ofWord, BitVec.getLsbD_extractLsb', decide_eq_true hj, Bool.true_and]

end Sys2Proof

namespace Sys2Proof.Machine

/-- Settles O19: by value from the two appends, and both round trips bit by bit. -/
theorem wordViewOfFrames : Obligations.WordViewOfFrames :=
  ⟨Frame3.toNat_toWord, Frame3.ofWord_toWord, Frame3.toWord_ofWord⟩

/-! ## The wire view of a frame (R29, R30) -/

/-- Settles O20: the bit of byte `i` that goes in period `8 * i + (7 - j)` stands at `23 - (8 * i + (7 - j))`. -/
theorem wireOrder : Obligations.WireOrder := by
  refine ⟨fun f k => rfl, fun f i j k hk => ?_⟩
  have hplace : 23 - k.val = 8 * (2 - i.val) + j.val := by omega
  rw [wireBit, hplace, Frame3.getLsbD_toWord_byte f i j.isLt]

theorem getElem?_bitPeriods (out resp : Frame3) (k : Fin 24) :
    (bitPeriods out resp)[k.val]? = some ⟨wireBit out k, wireBit resp k⟩ := by
  rw [bitPeriods, List.getElem?_ofFn, dif_pos k.isLt]

theorem assemble_append_one (bits : List Bool) (b : Bool) :
    assemble (bits ++ [b]) = (assemble bits <<< 1) ||| (BitVec.ofBool b).setWidth 24 := by
  simp [assemble]

/-- The register after `n + 1` of the word's bits: those of the first `n`, and the next one shifted in below them. -/
theorem shiftRight_eq_shiftIn (w : Word24) {n : Nat} (hn : n < 24) :
    w >>> (24 - (n + 1)) = (w >>> (24 - n)) <<< 1 ||| (BitVec.ofBool (w.getLsbD (23 - n))).setWidth 24 := by
  refine BitVec.eq_of_getLsbD_eq fun i hi => ?_
  cases i with
  | zero => simp
  | succ i =>
    have hplace : 24 - n + i = 24 - (n + 1) + (i + 1) := by omega
    simp [hplace, hi]

/-- After `n` bits the register holds the word's `n` most significant bits. -/
theorem assemble_ofFn (w : Word24) {n : Nat} (hn : n ≤ 24) :
    assemble (List.ofFn fun k : Fin n => w.getLsbD (23 - k.val)) = w >>> (24 - n) := by
  induction n with
  | zero => exact (BitVec.ushiftRight_eq_zero (x := w) le_rfl).symm
  | succ n ih =>
    rw [List.ofFn_succ_last, assemble_append_one, shiftRight_eq_shiftIn w hn, ← ih (Nat.le_of_lt hn)]
    rfl

theorem assemble_wireBits (f : Frame3) : assemble (List.ofFn (wireBit f)) = f.toWord :=
  assemble_ofFn f.toWord le_rfl

/-- Settles O21: the bits captured and the bits sent are the two frames', most significant first. -/
theorem exchangeIsBitAligned : Obligations.ExchangeIsBitAligned := by
  intro out resp
  refine ⟨getElem?_bitPeriods out resp, ?_, ?_⟩
  · rw [bitPeriods, List.map_ofFn]
    exact assemble_wireBits resp
  · rw [bitPeriods, List.map_ofFn]
    exact assemble_wireBits out

/-! ## The log as a sequence of transactions (R37, R39) -/

variable {E : Type}

/-- A complete transaction: a request of an invalid channel, or one of a valid channel with its frame's exchange and
the transport's answer (R73). -/
inductive Transaction (E : Type) where
  | rejected (c : Int) (hc : encodeCommand c = none)
  | exchanged (c : Int) (cmd : Frame3) (hc : encodeCommand c = some cmd) (a : Answer E)

/-- The channel requested. -/
def Transaction.channel : Transaction E → Int
  | .rejected c _ => c
  | .exchanged c _ _ _ => c

/-- The result delivered (R74, R76, R77). -/
def Transaction.result : Transaction E → Result E
  | .rejected _ _ => .invalidChannel
  | .exchanged _ _ _ a => a.result

/-- The events of a transaction, in order. -/
def Transaction.events : Transaction E → List (Event E)
  | .rejected c _ => [.req c, .done .invalidChannel]
  | .exchanged c cmd _ a => [.req c, .xfer cmd, a.event, .done a.result]

/-- The events since the last complete transaction of a log that stands at the given place. -/
inductive LogTail : LogPhase E → List (Event E) → Prop
  | between : LogTail .between []
  | requested (c : Int) : LogTail (.requested c) [.req c]
  | exchanging (c : Int) (cmd : Frame3) : encodeCommand c = some cmd →
      LogTail (.exchanging cmd) [.req c, .xfer cmd]
  | answered (c : Int) (cmd : Frame3) (a : Answer E) : encodeCommand c = some cmd →
      LogTail (.answered a.result) [.req c, .xfer cmd, a.event]
  | overlapped (c : Int) (cmd : Frame3) (c' : Int) : encodeCommand c = some cmd →
      LogTail (.overlapped cmd) [.req c, .xfer cmd, .req c']

/-- One more event leaves a tail again, or makes it a complete transaction: `Done` does, after a refused request and
after an answer. The cases are `logNext`'s, in its order. -/
theorem LogTail.next [DecidableEq E] {p p' : LogPhase E} {tail : List (Event E)} {e : Event E}
    (htail : LogTail p tail) (h : logNext p e = some p') :
    LogTail p' (tail ++ [e]) ∨ (p' = .between ∧ ∃ t : Transaction E, tail ++ [e] = t.events) := by
  unfold logNext at h
  split at h
  · cases htail
    cases h
    exact .inl (.requested _)
  · split at h
    · cases h
    · rename_i c hc
      cases htail
      cases h
      exact .inr ⟨rfl, .rejected c (encodeCommand_of_invalid (eq_false_of_ne_true hc)), rfl⟩
  · split at h
    · rename_i hc
      cases htail
      cases h
      exact .inl (.exchanging _ _ hc)
    · cases h
  · cases htail with
    | exchanging c _ hc =>
      cases h
      exact .inl (.answered c _ (.frame _) hc)
  · cases htail with
    | exchanging c _ hc =>
      cases h
      exact .inl (.answered c _ (.error _) hc)
  · cases htail with
    | exchanging c _ hc =>
      cases h
      exact .inl (.overlapped c _ _ hc)
  · split at h
    · rename_i hr
      cases htail with
      | answered c cmd a hc =>
        cases h
        exact .inr ⟨rfl, .exchanged c cmd hc a, by rw [← hr]; rfl⟩
    · cases h
  · cases h

/-- A log of the shape of R39 is complete transactions, one after another, and the tail that says where it stands. -/
theorem exists_transactions [DecidableEq E] {log : List (Event E)} {p : LogPhase E} (h : logPhase log = some p) :
    ∃ (ts : List (Transaction E)) (tail : List (Event E)),
      log = ts.flatMap Transaction.events ++ tail ∧ LogTail p tail := by
  induction log using List.reverseRecOn generalizing p with
  | nil =>
    obtain rfl := Option.some.inj h
    exact ⟨[], [], rfl, .between⟩
  | append_singleton log e ih =>
    rw [logPhase_append_one, Option.bind_eq_some_iff] at h
    obtain ⟨q, hq, hnext⟩ := h
    obtain ⟨ts, tail, rfl, htail⟩ := ih hq
    obtain htail' | ⟨rfl, t, ht⟩ := htail.next hnext
    · exact ⟨ts, tail ++ [e], List.append_assoc .., htail'⟩
    · refine ⟨ts ++ [t], [], ?_, .between⟩
      simp [ht]

/-! ### What a transaction requests, sends and delivers -/

theorem Transaction.filterMap_requested_events (t : Transaction E) :
    t.events.filterMap Event.requested = [t.channel] := by
  cases t with
  | rejected c hc => rfl
  | exchanged c cmd hc a => cases a <;> rfl

theorem Transaction.filterMap_delivered_events (t : Transaction E) :
    t.events.filterMap Event.delivered = [t.result] := by
  cases t with
  | rejected c hc => rfl
  | exchanged c cmd hc a => cases a <;> rfl

theorem Transaction.filterMap_sent_events (t : Transaction E) :
    t.events.filterMap Event.sent = (encodeCommand t.channel).toList := by
  cases t with
  | rejected c hc => simp [events, channel, Event.sent, hc]
  | exchanged c cmd hc a => cases a <;> simp [events, channel, Answer.event, Event.sent, List.filterMap_cons, hc]

theorem Answer.result_ne_invalidChannel (a : Answer E) : a.result ≠ .invalidChannel := by
  cases a <;> simp [Answer.result]

theorem Transaction.result_eq_invalidChannel_iff (t : Transaction E) :
    t.result = .invalidChannel ↔ validate t.channel = false := by
  cases t with
  | rejected c hc => exact iff_of_true rfl (encodeCommand_eq_none_iff.1 hc)
  | exchanged c cmd hc a =>
    have hvalid : validate c = true := (encodeCommand_eq_some_iff.1 hc).1
    exact iff_of_false a.result_ne_invalidChannel (by simp [channel, hvalid])

theorem filterMap_requested_transactions (ts : List (Transaction E)) :
    (ts.flatMap Transaction.events).filterMap Event.requested = ts.map Transaction.channel := by
  simp only [List.filterMap_flatMap, Transaction.filterMap_requested_events, List.map_eq_flatMap]

theorem filterMap_delivered_transactions (ts : List (Transaction E)) :
    (ts.flatMap Transaction.events).filterMap Event.delivered = ts.map Transaction.result := by
  simp only [List.filterMap_flatMap, Transaction.filterMap_delivered_events, List.map_eq_flatMap]

theorem filterMap_sent_transactions (ts : List (Transaction E)) :
    (ts.flatMap Transaction.events).filterMap Event.sent =
      (ts.map Transaction.channel).filterMap encodeCommand := by
  rw [List.filterMap_flatMap, List.filterMap_eq_flatMap_toList, List.flatMap_map]
  simp only [Transaction.filterMap_sent_events]

/-- The results answer the requests in order, whatever is requested after them. -/
theorem forall₂_transactions (ts : List (Transaction E)) (later : List Int) :
    List.Forall₂ (fun c r => r = Result.invalidChannel ↔ validate c = false)
      ((ts.map Transaction.channel ++ later).take (ts.map Transaction.result).length)
      (ts.map Transaction.result) := by
  rw [List.take_left' (by rw [List.length_map, List.length_map]), List.forall₂_map_left_iff,
    List.forall₂_map_right_iff, List.forall₂_same]
  exact fun t _ => t.result_eq_invalidChannel_iff

/-! ### The serial states -/

theorem State.Serial.logPhase_eq {s : State} (hs : s.Serial) {p : LogPhase TErr}
    (hdue : dueLogPhase s.fault s.phase = some p) : logPhase s.log = some p := by
  obtain ⟨-, -, q, hq, hlog⟩ := hs
  rwa [← hdue, hq]

theorem State.Serial.logPhase_of_idle {s : State} (hs : s.Serial) (hfault : s.fault = none)
    (hphase : s.phase = .idle) : logPhase s.log = some .between :=
  hs.logPhase_eq (by rw [hfault, hphase]; rfl)

theorem State.Serial.logPhase_of_exchanging {s : State} {cmd : Frame3} (hs : s.Serial) (hfault : s.fault = none)
    (hphase : s.phase = .exchanging cmd) : logPhase s.log = some (.exchanging cmd) :=
  hs.logPhase_eq (by rw [hfault, hphase]; rfl)

/-- `Request-Invalid` (R74) adds a transaction. -/
theorem State.Serial.requestInvalid {s : State} {c : Int} (hs : s.Serial) (hfault : s.fault = none)
    (hphase : s.phase = .idle) (hc : encodeCommand c = none) :
    ((s.emit (.req c)).deliver .invalidChannel).Serial := by
  have hlog := hs.logPhase_of_idle hfault hphase
  obtain ⟨hinvoked, hawaiting, -⟩ := hs
  refine ⟨hinvoked, hawaiting, .between, by simp [hfault, dueLogPhase], ?_⟩
  simp [logPhase_append_two, hlog, logNext, encodeCommand_eq_none_iff.1 hc]

/-- `Request-Valid` (R75) starts one. -/
theorem State.Serial.requestValid {s : State} {c : Int} {cmd : Frame3} (hs : s.Serial) (hfault : s.fault = none)
    (hphase : s.phase = .idle) (hc : encodeCommand c = some cmd) :
    ((s.emit (.req c)).startExchange .caller cmd).Serial := by
  have hlog := hs.logPhase_of_idle hfault hphase
  obtain ⟨hinvoked, -, -⟩ := hs
  refine ⟨hinvoked, rfl, .exchanging cmd, by simp [hfault, dueLogPhase], ?_⟩
  simp [logPhase_append_two, hlog, logNext, hc]

/-- `Request-Overlap` (R78) overlaps the one in flight. -/
theorem State.Serial.requestOverlap {s : State} {cmd : Frame3} (hs : s.Serial) (hfault : s.fault = none)
    (hphase : s.phase = .exchanging cmd) (c : Int) : (s.emit (.req c)).recordOverlap.Serial := by
  have hlog := hs.logPhase_of_exchanging hfault hphase
  obtain ⟨hinvoked, hawaiting, -⟩ := hs
  refine ⟨hinvoked, hawaiting, .overlapped cmd, by simp [hphase, dueLogPhase], ?_⟩
  simp [logPhase_append_one, hlog, logNext]

/-- `Answer-Frame` and `Answer-Error` (R76, R77) complete it. -/
theorem State.Serial.answer {s : State} {cmd : Frame3} (hs : s.Serial) (hfault : s.fault = none)
    (hphase : s.phase = .exchanging cmd) (a : Answer TErr) : (s.answer a).Serial := by
  have hlog := hs.logPhase_of_exchanging hfault hphase
  obtain ⟨hinvoked, hawaiting, -⟩ := hs
  rw [State.answer_caller hawaiting]
  refine ⟨hinvoked, hawaiting, .between, by simp [hfault, dueLogPhase], ?_⟩
  cases a <;> simp [logPhase_append_two, hlog, Answer.event, Answer.result, logNext]

/-- Settles O41, step by step: nothing is invoked by itself, so a step takes a request or an answer. -/
theorem stepKeepsSerial : Obligations.StepKeepsSerial := by
  intro s t hs hstep
  obtain ⟨_, _, hinvoked, -⟩ | ⟨-, hfault, r, rest, -, -, hread⟩ | ⟨-, hfault, -, cmd, a, rest, hphase, -, rfl⟩ :=
    step_next_cases hstep
  · obtain ⟨hnone, -⟩ := hs
    rw [hnone] at hinvoked
    cases hinvoked
  · have hs' : State.Serial { s with req := rest } := hs
    obtain ⟨-, ⟨hphase, hc, rfl⟩ | ⟨cmd, hphase, hc, rfl⟩ | ⟨cmd, hphase, rfl⟩⟩ := execReadChannel_next_cases hread
    · exact hs'.requestInvalid hfault hphase hc
    · exact hs'.requestValid hfault hphase hc
    · exact hs'.requestOverlap hfault hphase _
  · have hs' : State.Serial { s with xin := rest } := hs
    exact hs'.answer hfault hphase a

/-- Settles O42: the log is complete transactions and, in flight, the request and frame of one more. -/
theorem transactionsAreTotallyOrdered : Obligations.TransactionsAreTotallyOrdered := by
  intro s hs hfault
  cases hphase : s.phase with
  | idle =>
    obtain ⟨ts, tail, hlog, htail⟩ := exists_transactions (hs.logPhase_of_idle hfault hphase)
    cases htail with
    | between =>
      rw [hlog, List.append_nil, filterMap_requested_transactions, filterMap_delivered_transactions,
        filterMap_sent_transactions]
      refine ⟨rfl, fun _ => by simp, fun hne => absurd rfl hne, ?_⟩
      simpa only [List.append_nil] using forall₂_transactions ts []
  | exchanging cmd =>
    obtain ⟨ts, tail, hlog, htail⟩ := exists_transactions (hs.logPhase_of_exchanging hfault hphase)
    cases htail with
    | exchanging c _ hc =>
      have hrequested : s.log.filterMap Event.requested = ts.map Transaction.channel ++ [c] := by
        rw [hlog, List.filterMap_append, filterMap_requested_transactions]
        rfl
      have hdelivered : s.log.filterMap Event.delivered = ts.map Transaction.result := by
        rw [hlog, List.filterMap_append, filterMap_delivered_transactions]
        exact List.append_nil _
      have hsent : s.log.filterMap Event.sent = (ts.map Transaction.channel).filterMap encodeCommand ++ [cmd] := by
        rw [hlog, List.filterMap_append, filterMap_sent_transactions]
        rfl
      rw [hrequested, hdelivered, hsent]
      exact ⟨by simp [hc], fun hidle => Phase.noConfusion hidle, fun _ => by simp, forall₂_transactions ts [c]⟩

end Sys2Proof.Machine
end

section
/-! PROOFS. The encodings (30_encoding.md): the formats CFG8 and CMD24 as patterns of bits (rules R43, R45, R51), the
decoder against the encoder (R50), the frames never emitted (R53), and transaction scripts (R57), whose lines run as
READ_CHANNEL says. -/

namespace Sys2Proof

/-! ## Patterns of bits, field by field -/

theorem append_eq_append_iff {m n : Nat} {a a' : BitVec m} {b b' : BitVec n} :
    a ++ b = a' ++ b' ↔ a = a' ∧ b = b' := by
  refine ⟨fun h => ?_, fun ⟨ha, hb⟩ => by rw [ha, hb]⟩
  have hhigh := congrArg (BitVec.extractLsb' n m) h
  have hlow := congrArg (BitVec.extractLsb' 0 n) h
  simp only [BitVec.extractLsb'_append_eq_left, BitVec.extractLsb'_append_eq_right] at hhigh hlow
  exact ⟨hhigh, hlow⟩

/-- The pattern of CFG8, `00011ccc` (R43). -/
theorem isCfg8_iff_pattern {b : Byte} : isCfg8 b = true ↔ b = 0b00011#5 ++ cfg8Channel b := by
  rw [isCfg8, beq_iff_eq]
  constructor
  · intro h
    have hsplit : b.extractLsb' 3 5 ++ cfg8Channel b = b := BitVec.extractLsb'_append_extractLsb' (w := 5) (len := 3)
    have hmasked : (b.extractLsb' 3 5 ++ cfg8Channel b) &&& (BitVec.allOnes 5 ++ 0#3) = 0b00011#5 ++ 0#3 := by
      rw [hsplit]
      exact h
    rw [BitVec.and_append, append_eq_append_iff, BitVec.and_allOnes] at hmasked
    obtain ⟨hhigh, -⟩ := hmasked
    rw [← hhigh]
    exact hsplit.symm
  · intro h
    rw [h]
    generalize cfg8Channel b = ch
    revert ch
    decide

/-- The pattern of CMD24, `0000011ccc00000000000000` (R45). -/
theorem isCmd24_iff_pattern {f : Frame3} :
    isCmd24 f = true ↔ f.toWord = (0b0000011#7 ++ cmd24Channel f) ++ 0#14 := by
  rw [isCmd24, beq_iff_eq]
  constructor
  · intro h
    have hsplit : (f.toWord.extractLsb' 17 7 ++ cmd24Channel f) ++ f.toWord.extractLsb' 0 14 = f.toWord := by
      rw [cmd24Channel, BitVec.extractLsb'_append_extractLsb'_eq_extractLsb' (start₂ := 17) rfl]
      exact BitVec.extractLsb'_append_extractLsb' (w := 10) (len := 14)
    have hmasked : ((f.toWord.extractLsb' 17 7 ++ cmd24Channel f) ++ f.toWord.extractLsb' 0 14) &&&
        ((BitVec.allOnes 7 ++ 0#3) ++ BitVec.allOnes 14) = (0b0000011#7 ++ 0#3) ++ 0#14 := by
      rw [hsplit]
      exact h
    rw [BitVec.and_append, BitVec.and_append, append_eq_append_iff, append_eq_append_iff, BitVec.and_allOnes,
      BitVec.and_allOnes] at hmasked
    obtain ⟨⟨hhigh, -⟩, hlow⟩ := hmasked
    rw [← hhigh, ← hlow]
    exact hsplit.symm
  · intro h
    rw [h]
    generalize cmd24Channel f = ch
    revert ch
    decide

end Sys2Proof

namespace Sys2Proof.Machine

/-! ## CFG8 is the configuration values (R43) -/

theorem cfg8Channel_buildConfig (ch : Channel) : cfg8Channel (buildConfig ch) = ch := by
  rw [buildConfig_eq_append, cfg8Channel, BitVec.extractLsb'_append_eq_right]

theorem isCfg8_iff_exists {b : Byte} : isCfg8 b = true ↔ ∃ ch, buildConfig ch = b := by
  rw [isCfg8_iff_pattern]
  constructor
  · intro h
    exact ⟨cfg8Channel b, by rw [buildConfig_eq_append, ← h]⟩
  · rintro ⟨ch, rfl⟩
    rw [cfg8Channel_buildConfig, buildConfig_eq_append]

/-- Settles O6: the mask leaves `00011`, and BUILD_CONFIG puts that before the channel. -/
theorem cfg8IsTheConfigurationValues : Obligations.Cfg8IsTheConfigurationValues :=
  ⟨fun b => by rw [← isCfg8_iff_exists, isCfg8, beq_iff_eq], cfg8Channel_buildConfig⟩

/-! ## CMD24 is the command frames (R45, R51) -/

theorem toWord_packCommand_buildConfig (ch : Channel) :
    (packCommand (buildConfig ch)).toWord = (0b0000011#7 ++ ch) ++ 0#14 := by
  revert ch
  decide

/-- The frame packed for a channel is the frame of format CMD24 with that channel in its field. -/
theorem packCommand_buildConfig_eq_iff {ch : Channel} {f : Frame3} :
    packCommand (buildConfig ch) = f ↔ isCmd24 f = true ∧ cmd24Channel f = ch := by
  have hinjective : Function.Injective Frame3.toWord := Function.LeftInverse.injective Frame3.ofWord_toWord
  rw [isCmd24_iff_pattern, ← hinjective.eq_iff, toWord_packCommand_buildConfig]
  constructor
  · intro h
    have hfield : cmd24Channel f = ch := by
      rw [cmd24Channel, ← h, BitVec.extractLsb'_append_eq_of_le le_rfl]
      exact BitVec.extractLsb'_append_eq_right
    exact ⟨by rw [hfield, h], hfield⟩
  · rintro ⟨hword, rfl⟩
    exact hword.symm

/-- A channel operand is valid exactly if it is the number that its bits 2:0 stand for (R47): none is truncated. -/
theorem validate_and_channelBits_eq_iff {c : Int} {ch : Channel} :
    validate c = true ∧ channelBits c = ch ↔ (ch.toNat : Int) = c := by
  rw [validate_eq_true_iff]
  constructor
  · rintro ⟨⟨hlo, hhi⟩, rfl⟩
    rw [channelBits, BitVec.toNat_ofInt]
    omega
  · rintro rfl
    have hlt : ch.toNat < 2 ^ 3 := ch.isLt
    refine ⟨by omega, ?_⟩
    rw [channelBits, BitVec.ofInt_natCast, BitVec.ofNat_toNat, BitVec.setWidth_eq]

/-- ENCODE_COMMAND gives the frames of format CMD24, each to the channel in its field (R51). -/
theorem encodeCommand_eq_some_iff_cmd24 {c : Int} {f : Frame3} :
    encodeCommand c = some f ↔ isCmd24 f = true ∧ ((cmd24Channel f).toNat : Int) = c := by
  rw [encodeCommand_eq_some_iff, packCommand_buildConfig_eq_iff, ← validate_and_channelBits_eq_iff,
    eq_comm (a := cmd24Channel f)]
  exact and_left_comm

theorem isCmd24_of_encodeCommand {c : Int} {f : Frame3} (h : encodeCommand c = some f) : isCmd24 f = true :=
  (encodeCommand_eq_some_iff_cmd24.1 h).1

theorem isCmd24_iff_exists {f : Frame3} : isCmd24 f = true ↔ ∃ c : Int, encodeCommand c = some f :=
  ⟨fun hf => ⟨_, encodeCommand_eq_some_iff_cmd24.2 ⟨hf, rfl⟩⟩, fun ⟨_, hc⟩ => isCmd24_of_encodeCommand hc⟩

/-- Settles O10: the eight rows by evaluation, and the mask by the pattern of CMD24. -/
theorem commandFramesAreTheEight : Obligations.CommandFramesAreTheEight :=
  ⟨rfl, rfl, rfl, rfl, rfl, rfl, rfl, rfl, fun f => by rw [← isCmd24_iff_exists, isCmd24, beq_iff_eq]⟩

/-! ## Decoding and encoding agree (R50) -/

/-- PACK_COMMAND of a configuration value gives the frames of format CMD24, each to the configuration value of the
channel in its field (R44). -/
theorem isCfg8_and_packCommand_eq_iff {config : ConfigByte} {f : Frame3} :
    isCfg8 config = true ∧ packCommand config = f ↔ isCmd24 f = true ∧ 0b00011#5 ++ cmd24Channel f = config := by
  rw [isCfg8_iff_exists]
  constructor
  · rintro ⟨⟨ch, rfl⟩, hf⟩
    obtain ⟨hcmd, rfl⟩ := packCommand_buildConfig_eq_iff.1 hf
    exact ⟨hcmd, (buildConfig_eq_append _).symm⟩
  · rintro ⟨hcmd, rfl⟩
    rw [← buildConfig_eq_append]
    exact ⟨⟨_, rfl⟩, packCommand_buildConfig_eq_iff.2 ⟨hcmd, rfl⟩⟩

/-- The words of an operation decode to it: each format's bytes are those of the frame or byte that the operation's rule
gives. -/
theorem decode_of_encode {i : Instr} {w : OpWord} (h : encode i = some w) : decode w = .ok i := by
  cases i with
  | validate c => cases h
  | buildConfig ch =>
    obtain rfl := Option.some.inj h
    exact decodeCfg8_eq_ok_iff.2 ⟨_, rfl, isCfg8_iff_exists.2 ⟨ch, rfl⟩, by rw [cfg8Channel_buildConfig]⟩
  | packCommand config =>
    obtain ⟨hconfig, hw⟩ := Option.ite_none_right_eq_some.1 h
    obtain rfl := Option.some.inj hw
    obtain ⟨hcmd, hfield⟩ := isCfg8_and_packCommand_eq_iff.1 ⟨hconfig, rfl⟩
    rw [decode, decodeCmd24_eq_ok_iff]
    exact ⟨_, rfl, hcmd, congrArg Instr.packCommand hfield⟩
  | encodeCommand c =>
    obtain ⟨f, hf, rfl⟩ := Option.map_eq_some_iff.1 h
    obtain ⟨hcmd, hfield⟩ := encodeCommand_eq_some_iff_cmd24.1 hf
    rw [decode, decodeCmd24_eq_ok_iff]
    exact ⟨f, rfl, hcmd, congrArg Instr.encodeCommand hfield⟩
  | exchange cmd =>
    obtain ⟨hcmd, hw⟩ := Option.ite_none_right_eq_some.1 h
    obtain rfl := Option.some.inj hw
    rw [decode, decodeCmd24_eq_ok_iff]
    exact ⟨cmd, rfl, hcmd, rfl⟩
  | decodeResponse r =>
    obtain rfl := Option.some.inj h
    exact decodeRsp24_eq_ok_iff.2 ⟨r, rfl, rfl⟩
  | readChannel c =>
    obtain ⟨f, hf, rfl⟩ := Option.map_eq_some_iff.1 h
    obtain ⟨hcmd, hfield⟩ := encodeCommand_eq_some_iff_cmd24.1 hf
    rw [decode, decodeCmd24_eq_ok_iff]
    exact ⟨f, rfl, hcmd, congrArg Instr.readChannel hfield⟩

/-- Words that decode to an operation are its words: a format's fields are all that is free in its bytes. -/
theorem encode_of_decode {w : OpWord} {i : Instr} (h : decode w = .ok i) : encode i = some w := by
  obtain ⟨sel, bytes⟩ := w
  cases sel with
  | validate => cases h
  | buildConfig =>
    obtain ⟨b, rfl, hb, rfl⟩ := decodeCfg8_eq_ok_iff.1 h
    rw [encode, buildConfig_eq_append, ← isCfg8_iff_pattern.1 hb]
  | packCommand =>
    rw [decode] at h
    obtain ⟨f, rfl, hcmd, rfl⟩ := decodeCmd24_eq_ok_iff.1 h
    obtain ⟨hconfig, hf⟩ := isCfg8_and_packCommand_eq_iff.2 ⟨hcmd, rfl⟩
    rw [encode, if_pos hconfig, hf]
  | encodeCommand =>
    rw [decode] at h
    obtain ⟨f, rfl, hcmd, rfl⟩ := decodeCmd24_eq_ok_iff.1 h
    rw [encode, encodeCommand_eq_some_iff_cmd24.2 ⟨hcmd, rfl⟩, Option.map_some]
  | exchange =>
    rw [decode] at h
    obtain ⟨f, rfl, hcmd, rfl⟩ := decodeCmd24_eq_ok_iff.1 h
    rw [encode, if_pos hcmd]
  | decodeResponse =>
    obtain ⟨r, rfl, rfl⟩ := decodeRsp24_eq_ok_iff.1 h
    rfl
  | readChannel =>
    rw [decode] at h
    obtain ⟨f, rfl, hcmd, rfl⟩ := decodeCmd24_eq_ok_iff.1 h
    rw [encode, encodeCommand_eq_some_iff_cmd24.2 ⟨hcmd, rfl⟩, Option.map_some]

theorem isSome_encodeCommand (c : Int) : (encodeCommand c).isSome = validate c := by
  cases hc : validate c with
  | false => rw [encodeCommand_of_invalid hc, Option.isSome_none]
  | true => rw [encodeCommand_of_valid hc, Option.isSome_some]

theorem isSome_encode (i : Instr) : (encode i).isSome = i.hasWords := by
  cases i with
  | validate c => rfl
  | buildConfig ch => rfl
  | packCommand config => exact Bool.eq_iff_iff.2 Option.isSome_ite
  | encodeCommand c => rw [encode, Option.isSome_map, isSome_encodeCommand, Instr.hasWords]
  | exchange cmd => exact Bool.eq_iff_iff.2 Option.isSome_ite
  | decodeResponse r => rfl
  | readChannel c => rw [encode, Option.isSome_map, isSome_encodeCommand, Instr.hasWords]

/-- Settles O16: one inclusion by the operations, the other by the selectors. -/
theorem decodeEncodeAgree : Obligations.DecodeEncodeAgree :=
  ⟨fun _ _ => ⟨encode_of_decode, decode_of_encode⟩, isSome_encode⟩

/-- Settles O17: each word is evaluated. -/
theorem writtenWordsDecode : Obligations.WrittenWordsDecode :=
  ⟨rfl, rfl, rfl, rfl, rfl, rfl⟩

/-! ## The step that an invocation selects (R50, log 4) -/

theorem step_of_invoked {s : State} {inv : Invocation} {i : Instr} (hinvoked : s.invoked = some inv)
    (hinstr : inv.instr = .ok i) : step s = exec i { s with invoked := none } := by
  simp only [step, State.fetch, hinvoked, hinstr]

theorem step_of_invoked_error {s : State} {inv : Invocation} {e : DecodeError} (hinvoked : s.invoked = some inv)
    (hinstr : inv.instr = .error e) : step s = .refused (.undecodable e) := by
  simp only [step, State.fetch, hinvoked, hinstr]

/-- Settles O18: the two forms of an invocation, and the decoder's refusal. -/
theorem stepRunsTheDecodedOperation : Obligations.StepRunsTheDecodedOperation :=
  ⟨fun _ _ _ hinvoked hdecode => step_of_invoked hinvoked hdecode, fun _ _ hinvoked => step_of_invoked hinvoked rfl,
    fun _ _ _ hinvoked hdecode => step_of_invoked_error hinvoked hdecode⟩

/-! ## Frames that are never emitted (R53) -/

theorem execExchange_of_not_cmd24 {cmd : Frame3} (h : ¬ isCmd24 cmd = true) (s : State) :
    execExchange cmd s = .refused .reservedCommandFrame :=
  if_neg h

/-- Settles O26: a frame of no channel is not of format CMD24. -/
theorem exchangeRefusesReservedFrames : Obligations.ExchangeRefusesReservedFrames := by
  intro cmd s hreserved
  refine execExchange_of_not_cmd24 (fun hcmd => ?_) s
  obtain ⟨c, hc⟩ := isCmd24_iff_exists.1 hcmd
  exact hreserved c hc

theorem State.CommandsOnly.startExchange {s : State} (h : s.CommandsOnly) (who : Awaiting) {cmd : Frame3}
    (hcmd : isCmd24 cmd = true) : (s.startExchange who cmd).CommandsOnly := by
  obtain ⟨hsent, -⟩ := h
  constructor
  · intro f hf
    obtain hf | hf := List.mem_append.1 hf
    · exact hsent f hf
    · rwa [List.mem_singleton.1 hf]
  · intro cmd' hphase
    obtain rfl := Phase.exchanging.inj hphase
    exact List.getLast?_concat

/-- Back in `Idle` no frame is in flight. -/
theorem State.CommandsOnly.of_idle {s t : State} (h : s.CommandsOnly) (hxout : t.xout = s.xout)
    (hphase : t.phase = .idle) : t.CommandsOnly := by
  obtain ⟨hsent, -⟩ := h
  refine ⟨by rwa [hxout], fun cmd hexchanging => ?_⟩
  rw [hphase] at hexchanging
  cases hexchanging

/-- A frame goes out only when EXCHANGE has checked its format or ENCODE_COMMAND has made it. -/
theorem StepEffect.commandsOnly {u t : State} (h : StepEffect u t) (hu : u.CommandsOnly) : t.CommandsOnly := by
  cases h with
  | ends v => exact hu
  | invokes cmd _ _ hcmd => exact hu.startExchange .invoker hcmd
  | invokesOverlap => exact hu
  | requestInvalid c => exact hu.of_idle rfl rfl
  | requestValid c cmd _ _ hc =>
    have hlogged : (u.emit (.req c)).CommandsOnly := hu
    exact hlogged.startExchange .caller (isCmd24_of_encodeCommand hc)
  | requestOverlap c => exact hu
  | answers a => exact hu.of_idle (u.answer_xout a) (u.answer_phase a)

/-- Settles O45, effect by effect. -/
theorem stepKeepsCommandsOnly : Obligations.StepKeepsCommandsOnly := by
  intro s t hs hstep
  obtain ⟨_, _, _, heffect⟩ := step_next_effect hstep
  exact heffect.commandsOnly hs

/-! ## The steps of a run with nothing invoked by itself (R79) -/

theorem step_of_request {s : State} {r : Request} {rest : List Request} (hinvoked : s.invoked = none)
    (hfault : s.fault = none) (hphase : s.phase = .idle) (hreq : s.req = r :: rest) :
    step s = execReadChannel r.channel { s with req := rest } := by
  simp only [step, State.fetch, State.fetchRequest, hinvoked, hfault, hphase, hreq, exec]

theorem step_of_no_request {s : State} (hinvoked : s.invoked = none) (hfault : s.fault = none)
    (hphase : s.phase = .idle) (hreq : s.req = []) : step s = .fault .noRequest := by
  simp only [step, State.fetch, State.fetchRequest, hinvoked, hfault, hphase, hreq]

theorem step_of_answer {s : State} {cmd : Frame3} {a : Answer TErr} {rest : List (Answer TErr)}
    (hinvoked : s.invoked = none) (hfault : s.fault = none) (hphase : s.phase = .exchanging cmd)
    (hearly : s.nextIsEarly = false) (hxin : s.xin = a :: rest) :
    step s = .next (State.answer { s with xin := rest } a) := by
  simp only [step, State.fetch, State.fetchAnswer, hinvoked, hfault, hphase, hearly, hxin, Bool.false_eq_true, if_false]

theorem step_of_no_answer {s : State} {cmd : Frame3} (hinvoked : s.invoked = none) (hfault : s.fault = none)
    (hphase : s.phase = .exchanging cmd) (hearly : s.nextIsEarly = false) (hxin : s.xin = []) :
    step s = .fault .noAnswer := by
  simp only [step, State.fetch, State.fetchAnswer, hinvoked, hfault, hphase, hearly, hxin, Bool.false_eq_true, if_false]

theorem execReadChannel_of_invalid {c : Int} {s : State} (hfault : s.fault = none) (hphase : s.phase = .idle)
    (hc : encodeCommand c = none) : execReadChannel c s = .next ((s.emit (.req c)).deliver .invalidChannel) := by
  simp only [execReadChannel, hfault, hphase, hc]

theorem execReadChannel_of_valid {c : Int} {cmd : Frame3} {s : State} (hfault : s.fault = none)
    (hphase : s.phase = .idle) (hc : encodeCommand c = some cmd) :
    execReadChannel c s = .next ((s.emit (.req c)).startExchange .caller cmd) := by
  simp only [execReadChannel, hfault, hphase, hc]

theorem readChannel_of_encodeCommand {E : Type} {c : Int} {cmd : Frame3} (hc : encodeCommand c = some cmd)
    (xfer : Frame3 → Answer E) : readChannel xfer c = (xfer cmd).result := by
  obtain ⟨hvalid, rfl⟩ := encodeCommand_eq_some_iff.1 hc
  exact if_pos hvalid

/-! ## A run to its end -/

theorem runToStop_of_next {s t : State} (h : step s = .next t) (n : Nat) :
    runToStop (n + 1) s = runToStop n t := by
  simp only [runToStop, h]

theorem runToStop_of_fault {s : State} {f : Fault} (h : step s = .fault f) (n : Nat) : runToStop n s = s := by
  cases n with
  | zero => rfl
  | succ n => simp only [runToStop, h]

/-! ## A script, line by line (R57) -/

section
variable {E : Type} {results : List (Result E)} {frames : List Frame3} {c : Int} {cmd : Frame3} {program : List Int}
  {transport : List (Answer E)}

theorem expectedEnd_of_invalid (hc : encodeCommand c = none) :
    expectedEnd results frames (c :: program) transport =
      expectedEnd (results ++ [.invalidChannel]) frames program transport := by
  simp only [expectedEnd, hc]

theorem expectedEnd_of_no_answer (hc : encodeCommand c = some cmd) :
    expectedEnd results frames (c :: program) [] = ⟨results, frames ++ [cmd], .exchanging cmd, none⟩ := by
  simp only [expectedEnd, hc]

theorem expectedEnd_of_answer (hc : encodeCommand c = some cmd) (a : Answer E) :
    expectedEnd results frames (c :: program) (a :: transport) =
      expectedEnd (results ++ [readChannel (fun _ => a) c]) (frames ++ [cmd]) program transport := by
  simp only [expectedEnd, hc]

end

/-- The state stands before the lines `program` of a script, with the answers `transport` still to come. -/
structure State.Before (s : State) (program : List Int) (transport : List (Answer TErr)) : Prop where
  invoked : s.invoked = none
  fault : s.fault = none
  phase : s.phase = .idle
  req : s.req = program.map readLine
  xin : s.xin = transport

theorem State.nextIsEarly_of_lines {s : State} {program : List Int} (h : s.req = program.map readLine) :
    s.nextIsEarly = false := by
  cases program <;> simp [State.nextIsEarly, h, readLine]

/-- What a line of a valid channel has started (R75). -/
def State.afterRequest (s : State) (c : Int) (cmd : Frame3) (program : List Int) : State :=
  (State.emit { s with req := program.map readLine } (.req c)).startExchange .caller cmd

section
variable {s : State} {c : Int} {cmd : Frame3} {program : List Int} {transport : List (Answer TErr)}

/-- After the last line the run stops. -/
theorem State.Before.step_end (h : s.Before [] transport) : step s = .fault .noRequest :=
  step_of_no_request h.invoked h.fault h.phase h.req

/-- A line of an invalid channel takes one step and no answer. -/
theorem State.Before.step_invalid (h : s.Before (c :: program) transport) (hc : encodeCommand c = none) :
    ∃ t, step s = .next t ∧ t.Before program transport ∧ t.rsp = s.rsp ++ [.invalidChannel] ∧ t.xout = s.xout :=
  ⟨_, (step_of_request h.invoked h.fault h.phase h.req).trans (execReadChannel_of_invalid h.fault h.phase hc),
    ⟨h.invoked, h.fault, rfl, rfl, h.xin⟩, rfl, rfl⟩

/-- A line of a valid channel starts its exchange. -/
theorem State.Before.step_valid (h : s.Before (c :: program) transport) (hc : encodeCommand c = some cmd) :
    step s = .next (s.afterRequest c cmd program) :=
  (step_of_request h.invoked h.fault h.phase h.req).trans (execReadChannel_of_valid h.fault h.phase hc)

/-- Without an answer it is stuck there (D11). -/
theorem State.Before.step_stuck (h : s.Before (c :: program) []) :
    step (s.afterRequest c cmd program) = .fault .noAnswer :=
  step_of_no_answer h.invoked h.fault rfl (State.nextIsEarly_of_lines rfl) h.xin

/-- With one it ends with what READ_CHANNEL gives. -/
theorem State.Before.step_answer {a : Answer TErr} (h : s.Before (c :: program) (a :: transport))
    (hc : encodeCommand c = some cmd) :
    ∃ t, step (s.afterRequest c cmd program) = .next t ∧ t.Before program transport ∧
      t.rsp = s.rsp ++ [readChannel (fun _ => a) c] ∧ t.xout = s.xout ++ [cmd] := by
  refine ⟨_, step_of_answer h.invoked h.fault rfl (State.nextIsEarly_of_lines rfl) h.xin, ?_⟩
  rw [State.answer_caller rfl, readChannel_of_encodeCommand hc]
  exact ⟨⟨h.invoked, h.fault, rfl, rfl, rfl⟩, rfl, rfl⟩

end

/-- The run from `s` ends as `expected` says, and there it stops. -/
def StopsAt (n : Nat) (s : State) (expected : EndState TErr) : Prop :=
  (runToStop n s).endState = expected ∧ ∃ f, step (runToStop n s) = .fault f

theorem stopsAt_of_fault {s : State} {f : Fault} (h : step s = .fault f) (n : Nat) : StopsAt n s s.endState := by
  rw [StopsAt, runToStop_of_fault h]
  exact ⟨rfl, f, h⟩

theorem StopsAt.of_next {n : Nat} {s t : State} {expected : EndState TErr} (hstep : step s = .next t)
    (h : StopsAt n t expected) : StopsAt (n + 1) s expected := by
  rwa [StopsAt, runToStop_of_next hstep]

/-- By induction on the lines: each takes one step, or two. -/
theorem State.Before.stopsAt {program : List Int} {transport : List (Answer TErr)} {s : State}
    (h : s.Before program transport) {n : Nat} (hn : 2 * program.length ≤ n) :
    StopsAt n s (expectedEnd s.rsp s.xout program transport) := by
  induction program generalizing transport s n with
  | nil =>
    have hend : s.endState = expectedEnd s.rsp s.xout [] transport := by
      rw [State.endState, h.phase, h.fault, expectedEnd]
    rw [← hend]
    exact stopsAt_of_fault h.step_end n
  | cons c program ih =>
    rw [List.length_cons] at hn
    obtain ⟨n, rfl⟩ := Nat.exists_eq_add_of_le' (show 2 ≤ n by omega)
    have hrest : 2 * program.length ≤ n := by omega
    cases hc : encodeCommand c with
    | none =>
      obtain ⟨t, hstep, ht, hrsp, hxout⟩ := h.step_invalid hc
      rw [expectedEnd_of_invalid hc, ← hrsp, ← hxout]
      exact (ih ht (Nat.le_succ_of_le hrest)).of_next hstep
    | some cmd =>
      refine StopsAt.of_next (h.step_valid hc) ?_
      cases transport with
      | nil =>
        have hend : (s.afterRequest c cmd program).endState = ⟨s.rsp, s.xout ++ [cmd], .exchanging cmd, none⟩ :=
          congrArg (EndState.mk s.rsp (s.xout ++ [cmd]) (.exchanging cmd)) h.fault
        rw [expectedEnd_of_no_answer hc, ← hend]
        exact stopsAt_of_fault h.step_stuck (n + 1)
      | cons a transport =>
        obtain ⟨t, hstep, ht, hrsp, hxout⟩ := h.step_answer hc
        rw [expectedEnd_of_answer hc, ← hrsp, ← hxout]
        exact (ih ht hrest).of_next hstep

/-- Settles O55: a loaded script stands before its first line. -/
theorem scriptsRunToTheirEndState : Obligations.ScriptsRunToTheirEndState := by
  intro p s n hinvoked hfault hphase hn
  have hbefore : (s.load p).Before p.program p.transport := ⟨hinvoked, hfault, hphase, rfl, rfl⟩
  exact hbefore.stopsAt hn

end Sys2Proof.Machine
end

section
/-! PROOFS. The command encoding (40_command_encode.md): what VALIDATE, BUILD_CONFIG, PACK_COMMAND and ENCODE_COMMAND
invoked by themselves end with (rules R59 to R62), the closed form of a command frame (R63), and that its channel can
be read back from it (R65). -/

namespace Sys2Proof.Machine

/-! ## What each operation ends with (log 4) -/

theorem exec_validate (c : Int) (s : State) : exec (.validate c) s = .next (s.endWith (.bool (validate c))) :=
  rfl

theorem exec_buildConfig (ch : Channel) (s : State) :
    exec (.buildConfig ch) s = .next (s.endWith (.config (buildConfig ch))) :=
  rfl

theorem exec_packCommand (config : ConfigByte) (s : State) :
    exec (.packCommand config) s = .next (s.endWith (.frame (packCommand config))) :=
  rfl

theorem exec_encodeCommand (c : Int) (s : State) :
    exec (.encodeCommand c) s = .next (s.endWith ((encodeCommand c).elim .invalidChannel .frame)) :=
  execEncodeCommand_eq c s

/-! ## The channel of a command frame (R62, R65) -/

theorem encodeCommand_eq_none_iff_range {c : Int} : encodeCommand c = none ↔ c < 0 ∨ 7 < c :=
  encodeCommand_eq_none_iff.trans validate_eq_false_iff

theorem cmd24Channel_of_encodeCommand {c : Int} {f : Frame3} (h : encodeCommand c = some f) :
    ((cmd24Channel f).toNat : Int) = c :=
  (encodeCommand_eq_some_iff_cmd24.1 h).2

/-- Settles O11: two channels with one frame are both the number in that frame's channel field. -/
theorem encodeCommandInjective : Obligations.EncodeCommandInjective :=
  ⟨fun _ _ _ hc hd => (cmd24Channel_of_encodeCommand hc).symm.trans (cmd24Channel_of_encodeCommand hd),
    fun _ _ => cmd24Channel_of_encodeCommand, fun _ => encodeCommand_eq_none_iff_range.2⟩

/-- Settles O4: the Bool is VALIDATE's own, which is the check on the whole integer. -/
theorem validateResult : Obligations.ValidateResult :=
  fun c s => ⟨validate c, exec_validate c s, validate_eq_true_iff⟩

/-! ## The configuration value (R44, R60) -/

/-- The channel lies below the three low zeros of 0x18, so that appending is the OR. -/
theorem buildConfig_eq_or (ch : Channel) : buildConfig ch = 0x18#8 ||| ch.setWidth 8 := by
  rw [buildConfig_eq_append, BitVec.append_def]
  rfl

theorem toNat_buildConfig_eq_or (ch : Channel) : (buildConfig ch).toNat = 0x18 ||| ch.toNat := by
  rw [buildConfig_eq_append, BitVec.toNat_append]
  rfl

theorem toNat_buildConfig_eq_add (ch : Channel) : (buildConfig ch).toNat = 0x18 + ch.toNat := by
  rw [buildConfig_eq_append, toNat_append_eq_add]
  rfl

/-- Settles O5: `00011 ++ ch` is both OR forms, and 0x18 plus a number below 8. -/
theorem buildConfigResult : Obligations.BuildConfigResult := by
  intro ch s
  have hlt : ch.toNat < 8 := ch.isLt
  have hval := toNat_buildConfig_eq_add ch
  exact ⟨buildConfig ch, exec_buildConfig ch s, buildConfig_eq_or ch, buildConfig_eq_or ch, buildConfig_eq_append ch,
    by omega, by omega⟩

/-! ## The packed frame (R48, R61) -/

/-- A mask of eight bits leaves a number that fits in a byte, so narrowing loses nothing. -/
theorem toNat_ofNat_and_of_lt (n : Nat) {mask : Nat} (h : mask < 2 ^ 8) :
    (BitVec.ofNat 8 (n &&& mask)).toNat = n &&& mask := by
  rw [BitVec.toNat_ofNat, Nat.mod_eq_of_lt (Nat.and_lt_two_pow n h)]

theorem toNat_packCommand_b0 (config : ConfigByte) :
    (packCommand config).b0.toNat = (config.toNat >>> 2) &&& 0x07 :=
  toNat_ofNat_and_of_lt _ (by decide)

theorem toNat_packCommand_b1 (config : ConfigByte) :
    (packCommand config).b1.toNat = (config.toNat <<< 6) &&& 0xC0 :=
  toNat_ofNat_and_of_lt _ (by decide)

/-- Masking before the shift: `(x << 6) & 0xC0 = (x & 3) << 6`. -/
theorem shiftLeft_six_and (x : Nat) : (x <<< 6) &&& 0xC0 = (x &&& 0x03) <<< 6 :=
  (Nat.shiftLeft_and_distrib (b := 0x03)).symm

/-- The mask 0x07 keeps three bits: the slice `config[4:2]`. -/
theorem packCommand_b0_eq_slice (config : ConfigByte) :
    (packCommand config).b0 = (config.extractLsb' 2 3).setWidth 8 := by
  refine BitVec.eq_of_toNat_eq ?_
  rw [toNat_packCommand_b0, BitVec.toNat_setWidth_of_le (by decide), BitVec.extractLsb'_toNat]
  exact Nat.and_two_pow_sub_one_eq_mod _ 3

/-- The mask 0xC0 keeps the two bits shifted to the top: the slice `config[1:0]`. -/
theorem packCommand_b1_eq_slice (config : ConfigByte) :
    (packCommand config).b1 = config.extractLsb' 0 2 ++ 0#6 := by
  refine BitVec.eq_of_toNat_eq ?_
  rw [toNat_packCommand_b1, shiftLeft_six_and, BitVec.toNat_append, BitVec.extractLsb'_toNat, BitVec.toNat_zero,
    Nat.or_zero, Nat.shiftRight_zero]
  exact congrArg (· <<< 6) (Nat.and_two_pow_sub_one_eq_mod _ 2)

/-- Settles O7: each byte by its mask, as a number and as a slice. -/
theorem packCommandResult : Obligations.PackCommandResult :=
  fun config s => ⟨packCommand config, exec_packCommand config s, toNat_packCommand_b0 config,
    toNat_packCommand_b1 config, packCommand_b0_eq_slice config, packCommand_b1_eq_slice config, rfl⟩

/-! ## The command frame of a valid channel (R62, R63) -/

theorem exists_channel_of_range {c : Int} (h : 0 ≤ c ∧ c ≤ 7) : ∃ ch : Channel, (ch.toNat : Int) = c :=
  ⟨channelBits c, validate_and_channelBits_eq_iff.1 ⟨validate_eq_true_iff.2 h, rfl⟩⟩

theorem encodeCommand_of_channel {c : Int} {ch : Channel} (h : (ch.toNat : Int) = c) :
    encodeCommand c = some (packCommand (buildConfig ch)) := by
  obtain ⟨hvalid, rfl⟩ := validate_and_channelBits_eq_iff.2 h
  exact encodeCommand_of_valid hvalid

/-- Settles O8: outside the range there is no frame; inside it the channel's bits are the channel. -/
theorem encodeCommandResult : Obligations.EncodeCommandResult := by
  intro c s
  rw [exec_encodeCommand]
  constructor
  · intro hinvalid
    rw [encodeCommand_eq_none_iff_range.2 hinvalid]
    rfl
  · intro hvalid
    obtain ⟨ch, hch⟩ := exists_channel_of_range hvalid
    rw [encodeCommand_of_channel hch]
    exact ⟨ch, hch, rfl⟩

/-- Byte 0 is the start and mode bits moved to 0x06, and the channel's high bit. -/
theorem toNat_packCommand_buildConfig_b0 (ch : Channel) :
    (packCommand (buildConfig ch)).b0.toNat = 0x06 ||| (ch.toNat >>> 2) := by
  have hfits : ch.toNat >>> 2 < 2 ^ 3 := (Nat.shiftRight_le _ _).trans_lt ch.isLt
  calc (packCommand (buildConfig ch)).b0.toNat
      = ((0x18 ||| ch.toNat) >>> 2) &&& 0x07 := by rw [toNat_packCommand_b0, toNat_buildConfig_eq_or]
    _ = (0x18 >>> 2 &&& 0x07) ||| (ch.toNat >>> 2 &&& 0x07) := by
        rw [Nat.shiftRight_or_distrib, Nat.and_or_distrib_right]
    _ = 0x06 ||| (ch.toNat >>> 2 &&& 0x07) := rfl
    _ = 0x06 ||| (ch.toNat >>> 2) := by rw [Nat.and_two_pow_sub_one_of_lt_two_pow hfits]

/-- Byte 1 is the channel's two low bits: those of 0x18 are zero. -/
theorem toNat_packCommand_buildConfig_b1 (ch : Channel) :
    (packCommand (buildConfig ch)).b1.toNat = (ch.toNat &&& 0x03) <<< 6 := by
  rw [toNat_packCommand_b1, shiftLeft_six_and, toNat_buildConfig_eq_or, Nat.and_or_distrib_right]
  exact congrArg (· <<< 6) (Nat.zero_or _)

theorem toNat_toWord_packCommand_buildConfig (ch : Channel) :
    (packCommand (buildConfig ch)).toWord.toNat = 0x060000 ||| (ch.toNat <<< 14) := by
  rw [toWord_packCommand_buildConfig, BitVec.toNat_append, BitVec.toNat_append, Nat.shiftLeft_or_distrib]
  exact Nat.or_zero _

/-- Settles O9: `n` is the number of a channel, and its frame is packed from `0x18 | n`. -/
theorem encodeCommandClosedForm : Obligations.EncodeCommandClosedForm := by
  intro n hn
  obtain ⟨ch, hch⟩ := exists_channel_of_range (c := n) (by omega)
  obtain rfl : ch.toNat = n := Int.ofNat_inj.1 hch
  exact ⟨packCommand (buildConfig ch), encodeCommand_of_channel rfl, toNat_packCommand_buildConfig_b0 ch,
    toNat_packCommand_buildConfig_b1 ch, rfl, toNat_toWord_packCommand_buildConfig ch⟩

end Sys2Proof.Machine
end

section
/-! PROOFS. The response decoding (41_response_decode.md): DECODE_RESPONSE as the sample field of the response's word
(rules R46, R66, R67), which responses give a sample (R68, R69), and that the bits outside that field never influence a
step (R54, R68). -/

namespace Sys2Proof.Machine

/-! ## The sample of a response (R66, R67) -/

theorem exec_decodeResponse (r : Frame3) (s : State) :
    exec (.decodeResponse r) s = .next (s.endWith (.sample (decodeResponse r))) :=
  rfl

/-- The mask 0x0F keeps the slice `b[3:0]`. -/
theorem toNat_and_nibble (b : Byte) : b.toNat &&& 0x0F = (b.extractLsb' 0 4).toNat := by
  rw [BitVec.extractLsb'_toNat, Nat.shiftRight_zero]
  exact Nat.and_two_pow_sub_one_eq_mod _ 4

/-- The OR is an append: the slice is shifted past `r[2]`. -/
theorem decodeResponse_eq_append (r : Frame3) : decodeResponse r = r.b1.extractLsb' 0 4 ++ r.b2 := by
  rw [decodeResponse, toNat_and_nibble, ← BitVec.toNat_append, BitVec.ofNat_toNat, BitVec.setWidth_eq]

theorem toNat_decodeResponse (r : Frame3) :
    (decodeResponse r).toNat = ((r.b1.toNat &&& 0x0F) <<< 8) ||| r.b2.toNat := by
  rw [decodeResponse_eq_append, BitVec.toNat_append, toNat_and_nibble]

/-- Settles O12: the value is the slices side by side, and any 12 bits are at most 4095. -/
theorem decodeResponseResult : Obligations.DecodeResponseResult :=
  fun r s => ⟨decodeResponse r, exec_decodeResponse r s, toNat_decodeResponse r, decodeResponse_eq_append r,
    Nat.le_of_lt_succ (decodeResponse r).isLt⟩

/-! ## The bits a response is decoded from (R46, R68) -/

theorem decodeResponse_eq_of_sameSampleBits {r r' : Frame3} (h : sameSampleBits r r') :
    decodeResponse r = decodeResponse r' := by
  obtain ⟨hmasked, hlow⟩ := h
  have hnibble : r.b1.toNat &&& 0x0F = r'.b1.toNat &&& 0x0F := congrArg BitVec.toNat hmasked
  rw [decodeResponse, decodeResponse, hnibble, hlow]

/-- The sample is the field that format RSP24 gives the response's word. -/
theorem decodeResponse_eq_rsp24Sample (r : Frame3) : decodeResponse r = rsp24Sample r := by
  refine BitVec.eq_of_toNat_eq ?_
  rw [decodeResponse_eq_append, toNat_append_eq_add, rsp24Sample, BitVec.extractLsb'_toNat, BitVec.extractLsb'_toNat,
    Frame3.toNat_toWord, Nat.shiftRight_zero, Nat.shiftRight_zero]
  omega

/-- A word whose low bits are `v` is `x ++ v` for exactly one `x`, its high bits; and no other word is. -/
theorem extractLsb'_eq_iff_existsUnique_append {m n : Nat} {w : BitVec (m + n)} {v : BitVec n} :
    w.extractLsb' 0 n = v ↔ ∃! x : BitVec m, w = x ++ v := by
  constructor
  · rintro rfl
    refine ⟨w.extractLsb' n m, BitVec.extractLsb'_append_extractLsb'.symm, fun x hx => ?_⟩
    rw [hx, BitVec.extractLsb'_append_eq_left]
  · rintro ⟨x, rfl, -⟩
    exact BitVec.extractLsb'_append_eq_right

/-- Settles O13: the sample is a function of the bits it reads, and the low half of the word. -/
theorem decodeIgnoresTwelveBits : Obligations.DecodeIgnoresTwelveBits := by
  refine ⟨fun r r' hmasked hlow => decodeResponse_eq_of_sameSampleBits ⟨hmasked, hlow⟩, fun r v => ?_⟩
  rw [decodeResponse_eq_rsp24Sample]
  exact extractLsb'_eq_iff_existsUnique_append (m := 12)

/-! ## The bijection (R69) -/

/-- The frame that R69 gives for a sample decodes to it. -/
theorem decodeResponse_of_sample (v : Sample) :
    decodeResponse ⟨0x00#8, BitVec.ofNat 8 (v.toNat >>> 8), BitVec.ofNat 8 (v.toNat &&& 0xFF)⟩ = v := by
  have hlow : v.toNat &&& 0xFF = v.toNat % 2 ^ 8 := Nat.and_two_pow_sub_one_eq_mod _ 8
  have hlt : v.toNat < 2 ^ 12 := v.isLt
  refine BitVec.eq_of_toNat_eq ?_
  rw [decodeResponse_eq_append, toNat_append_eq_add, BitVec.extractLsb'_toNat, BitVec.toNat_ofNat, BitVec.toNat_ofNat,
    hlow, Nat.shiftRight_zero, Nat.shiftRight_eq_div_pow]
  omega

theorem decodeResponse_append (a : Byte) (h n : BitVec 4) (b : Byte) : decodeResponse ⟨a, h ++ n, b⟩ = n ++ b := by
  rw [decodeResponse_eq_append, BitVec.extractLsb'_append_eq_right]

/-- Settles O14: onto by the frame of each sample, and one-to-one because an append can be taken apart. -/
theorem decodeIsBijectiveOnItsBits : Obligations.DecodeIsBijectiveOnItsBits := by
  refine ⟨decodeResponse_of_sample, fun a a' h h' n n' b b' hsame => ?_⟩
  rwa [decodeResponse_append, decodeResponse_append, append_eq_append_iff] at hsame

/-! ## States that differ only in what the block never looks at (R54, R68) -/

theorem Answer.alike.result_eq {a b : Answer TErr} (h : a.alike b) : a.result = b.result := by
  match a, b, h with
  | .frame _, .frame _, h => exact congrArg Result.ok (decodeResponse_eq_of_sameSampleBits h)
  | .error _, .error _, h => exact congrArg Result.transportError h

section
variable {s t : State}

theorem State.alike.phase_eq (h : s.alike t) : s.phase = t.phase := by
  obtain ⟨hphase, -⟩ := h
  exact hphase

theorem State.alike.fault_eq (h : s.alike t) : s.fault = t.fault := by
  obtain ⟨-, hfault, -⟩ := h
  exact hfault

theorem State.alike.req_eq (h : s.alike t) : s.req = t.req := by
  obtain ⟨-, -, hreq, -⟩ := h
  exact hreq

theorem State.alike.xin_alike (h : s.alike t) : List.Forall₂ Answer.alike s.xin t.xin := by
  obtain ⟨-, -, -, hxin, -⟩ := h
  exact hxin

theorem State.alike.invoked_eq (h : s.alike t) : s.invoked = t.invoked := by
  obtain ⟨-, -, -, -, -, -, hinvoked, -⟩ := h
  exact hinvoked

theorem State.alike.awaiting_eq (h : s.alike t) : s.awaiting = t.awaiting := by
  obtain ⟨-, -, -, -, -, -, -, hawaiting⟩ := h
  exact hawaiting

theorem State.alike.nextIsEarly_eq (h : s.alike t) : s.nextIsEarly = t.nextIsEarly := by
  rw [State.nextIsEarly, h.req_eq, ← State.nextIsEarly]

/-! ### An invocation, a request or an answer taken -/

theorem State.alike.takeInvocation (h : s.alike t) :
    State.alike { s with invoked := none } { t with invoked := none } := by
  obtain ⟨hphase, hfault, hreq, hxin, hxout, hrsp, -, hawaiting⟩ := h
  exact ⟨hphase, hfault, hreq, hxin, hxout, hrsp, rfl, hawaiting⟩

theorem State.alike.takeRequest (h : s.alike t) (rest : List Request) :
    State.alike { s with req := rest } { t with req := rest } := by
  obtain ⟨hphase, hfault, -, hlater⟩ := h
  exact ⟨hphase, hfault, rfl, hlater⟩

theorem State.alike.takeAnswer (h : s.alike t) {rest later : List (Answer TErr)}
    (hrest : List.Forall₂ Answer.alike rest later) :
    State.alike { s with xin := rest } { t with xin := later } := by
  obtain ⟨hphase, hfault, hreq, -, hsent⟩ := h
  exact ⟨hphase, hfault, hreq, hrest, hsent⟩

/-! ### The operations over the state -/

/-- The two may log different events: their answers are logged with the ignored bits. -/
theorem State.alike.emit (h : s.alike t) (e e' : Event TErr) : (s.emit e).alike (t.emit e') :=
  h

/-- The two may return different values: EXCHANGE returns the whole frame (R72). -/
theorem State.alike.endWith (h : s.alike t) (v v' : Returned TErr) : (s.endWith v).alike (t.endWith v') :=
  h

theorem State.alike.startExchange (h : s.alike t) (who : Awaiting) (cmd : Frame3) :
    (s.startExchange who cmd).alike (t.startExchange who cmd) := by
  obtain ⟨-, hfault, hreq, hxin, hxout, hrsp, hinvoked, -⟩ := h
  exact ⟨rfl, hfault, hreq, hxin, congrArg (· ++ [cmd]) hxout, hrsp, hinvoked, rfl⟩

theorem State.alike.deliver (h : s.alike t) (r : Result TErr) : (s.deliver r).alike (t.deliver r) := by
  obtain ⟨-, hfault, hreq, hxin, hxout, hrsp, hinvoked, hawaiting⟩ := h
  exact ⟨rfl, hfault, hreq, hxin, hxout, congrArg (· ++ [r]) hrsp, hinvoked, hawaiting⟩

theorem State.alike.recordOverlap (h : s.alike t) : s.recordOverlap.alike t.recordOverlap := by
  obtain ⟨hphase, -, hrest⟩ := h
  exact ⟨hphase, rfl, hrest⟩

theorem State.alike.settle (h : s.alike t) : s.settle.alike t.settle := by
  obtain ⟨-, hfault, hreq, hxin, hxout, hrsp, hinvoked, -⟩ := h
  exact ⟨rfl, hfault, hreq, hxin, hxout, hrsp, hinvoked, rfl⟩

/-- Alike answers give a transaction the same result. -/
theorem State.alike.answer (h : s.alike t) {a b : Answer TErr} (hab : a.alike b) :
    (s.answer a).alike (t.answer b) := by
  cases hs : s.awaiting with
  | caller =>
    rw [State.answer_caller hs, State.answer_caller (h.awaiting_eq.symm.trans hs), hab.result_eq]
    exact (h.emit _ _).deliver _
  | invoker =>
    rw [State.answer_invoker hs, State.answer_invoker (h.awaiting_eq.symm.trans hs)]
    exact ((h.emit _ _).endWith _ _).settle

end

/-! ## What an operation does in alike states -/

/-- An operation but EXCHANGE and READ_CHANNEL ends with one value, whatever the state. -/
theorem exec_pure_or_transaction (i : Instr) :
    (∃ v, ∀ s, exec i s = .next (s.endWith v)) ∨ (∃ cmd, i = .exchange cmd) ∨ ∃ c, i = .readChannel c := by
  cases i with
  | validate c => exact .inl ⟨_, exec_validate c⟩
  | buildConfig ch => exact .inl ⟨_, exec_buildConfig ch⟩
  | packCommand config => exact .inl ⟨_, exec_packCommand config⟩
  | encodeCommand c => exact .inl ⟨_, exec_encodeCommand c⟩
  | exchange cmd => exact .inr (.inl ⟨cmd, rfl⟩)
  | decodeResponse r => exact .inl ⟨_, exec_decodeResponse r⟩
  | readChannel c => exact .inr (.inr ⟨c, rfl⟩)

theorem execExchange_of_idle {cmd : Frame3} {s : State} (hcmd : isCmd24 cmd = true) (hfault : s.fault = none)
    (hphase : s.phase = .idle) : execExchange cmd s = .next (s.startExchange .invoker cmd) := by
  simp only [execExchange, hcmd, hfault, hphase, if_true]

theorem execExchange_of_exchanging {cmd other : Frame3} {s : State} (hcmd : isCmd24 cmd = true)
    (hfault : s.fault = none) (hphase : s.phase = .exchanging other) :
    execExchange cmd s = .next s.recordOverlap := by
  simp only [execExchange, hcmd, hfault, hphase, if_true]

theorem execReadChannel_of_exchanging {cmd : Frame3} {s : State} (c : Int) (hfault : s.fault = none)
    (hphase : s.phase = .exchanging cmd) : execReadChannel c s = .next (s.emit (.req c)).recordOverlap := by
  simp only [execReadChannel, hfault, hphase]

section
variable {s t s' : State}

theorem execExchange_next_of_alike {cmd : Frame3} (h : s.alike t) (hexec : execExchange cmd s = .next s') :
    ∃ t', execExchange cmd t = .next t' ∧ s'.alike t' := by
  obtain ⟨hcmd, hfault, ⟨hphase, rfl⟩ | ⟨other, hphase, rfl⟩⟩ := execExchange_next_cases hexec
  all_goals
    rw [h.fault_eq] at hfault
    rw [h.phase_eq] at hphase
  · exact ⟨_, execExchange_of_idle hcmd hfault hphase, h.startExchange .invoker cmd⟩
  · exact ⟨_, execExchange_of_exchanging hcmd hfault hphase, h.recordOverlap⟩

theorem execReadChannel_next_of_alike {c : Int} (h : s.alike t) (hexec : execReadChannel c s = .next s') :
    ∃ t', execReadChannel c t = .next t' ∧ s'.alike t' := by
  obtain ⟨hfault, ⟨hphase, hc, rfl⟩ | ⟨cmd, hphase, hc, rfl⟩ | ⟨cmd, hphase, rfl⟩⟩ :=
    execReadChannel_next_cases hexec
  all_goals
    rw [h.fault_eq] at hfault
    rw [h.phase_eq] at hphase
  · exact ⟨_, execReadChannel_of_invalid hfault hphase hc, (h.emit _ _).deliver _⟩
  · exact ⟨_, execReadChannel_of_valid hfault hphase hc, (h.emit _ _).startExchange _ _⟩
  · exact ⟨_, execReadChannel_of_exchanging c hfault hphase, (h.emit _ _).recordOverlap⟩

theorem exec_next_of_alike {i : Instr} (h : s.alike t) (hexec : exec i s = .next s') :
    ∃ t', exec i t = .next t' ∧ s'.alike t' := by
  obtain ⟨v, hpure⟩ | ⟨cmd, rfl⟩ | ⟨c, rfl⟩ := exec_pure_or_transaction i
  · obtain rfl := Host.Outcome.next.inj ((hpure s).symm.trans hexec)
    exact ⟨_, hpure t, h.endWith v v⟩
  · exact execExchange_next_of_alike h hexec
  · exact execReadChannel_next_of_alike h hexec

end

/-! ## What a step does in alike states -/

/-- A request sent early is taken during an exchange (R78). -/
theorem step_of_early_request {s : State} {cmd : Frame3} {r : Request} {rest : List Request}
    (hinvoked : s.invoked = none) (hfault : s.fault = none) (hphase : s.phase = .exchanging cmd)
    (hearly : r.early = true) (hreq : s.req = r :: rest) :
    step s = execReadChannel r.channel { s with req := rest } := by
  simp only [step, State.fetch, State.fetchRequest, State.nextIsEarly, hinvoked, hfault, hphase, hreq, hearly, if_true,
    exec]

/-- A request is taken in `Idle`, or early. -/
theorem step_of_request_taken {s : State} {r : Request} {rest : List Request} (hinvoked : s.invoked = none)
    (hfault : s.fault = none) (hreq : s.req = r :: rest)
    (hwhen : s.phase = .idle ∨ (r.early = true ∧ ∃ cmd, s.phase = .exchanging cmd)) :
    step s = execReadChannel r.channel { s with req := rest } := by
  obtain hidle | ⟨hearly, cmd, hexchanging⟩ := hwhen
  · exact step_of_request hinvoked hfault hidle hreq
  · exact step_of_early_request hinvoked hfault hexchanging hearly hreq

/-- Settles O54: the other state takes the same invocation or request, or an answer alike, and goes on alike. -/
theorem ignoredBitsNeverMatter : Obligations.IgnoredBitsNeverMatter := by
  intro s t s' h hstep
  obtain ⟨inv, i, hinvoked, hinstr, hexec⟩ | ⟨hinvoked, hfault, r, rest, hreq, hwhen, hexec⟩ |
    ⟨hinvoked, hfault, hearly, cmd, a, rest, hphase, hxin, rfl⟩ := step_next_cases hstep
  · rw [h.invoked_eq] at hinvoked
    rw [step_of_invoked hinvoked hinstr]
    exact exec_next_of_alike h.takeInvocation hexec
  · rw [h.invoked_eq] at hinvoked
    rw [h.fault_eq] at hfault
    rw [h.req_eq] at hreq
    rw [h.phase_eq] at hwhen
    rw [step_of_request_taken hinvoked hfault hreq hwhen]
    exact execReadChannel_next_of_alike (h.takeRequest rest) hexec
  · rw [h.invoked_eq] at hinvoked
    rw [h.fault_eq] at hfault
    rw [h.nextIsEarly_eq] at hearly
    rw [h.phase_eq] at hphase
    have halike := h.xin_alike
    rw [hxin] at halike
    obtain ⟨b, later, hab, hrest, hxin'⟩ := List.forall₂_cons_left_iff.1 halike
    exact ⟨_, step_of_answer hinvoked hfault hphase hearly hxin', (h.takeAnswer hrest).answer hab⟩

end Sys2Proof.Machine
end

section
/-! PROOFS. The read channel (42_read_channel.md): READ_CHANNEL as a function (rule R73), EXCHANGE (R72), the five steps
R74 to R78 with their whole next states, which of them are enabled (R79), final states (R80), the steps of one request
against the function (R81), and that no step reads the past (R83). -/

namespace Sys2Proof.Machine

/-! ## READ_CHANNEL as a function (R73) -/

theorem readChannel_of_invalid {E : Type} {c : Int} (hc : encodeCommand c = none) (xfer : Frame3 → Answer E) :
    readChannel xfer c = .invalidChannel :=
  if_neg (by rw [encodeCommand_eq_none_iff.1 hc]; decide)

/-- Settles O28: an invalid channel has no command frame, and a valid one's is what the transport is called with. -/
theorem readChannelFunction : Obligations.ReadChannelFunction := by
  intro E xfer c
  refine ⟨fun hinvalid => ⟨readChannel_of_invalid (encodeCommand_eq_none_iff_range.2 hinvalid) xfer, ?_⟩,
    fun hvalid => ?_⟩
  · rw [transportCalls_eq, if_neg (by omega)]
  · have hc := encodeCommand_of_valid (validate_eq_true_iff.2 hvalid)
    refine ⟨_, hc, by rw [transportCalls_eq, if_pos hvalid], fun resp hresp => ?_, fun e he => ?_⟩
    · rw [readChannel_of_encodeCommand hc, hresp, Answer.result]
    · rw [readChannel_of_encodeCommand hc, he, Answer.result]

/-! ## The steps, each with its whole next state (R74 to R78) -/

/-- An event and a result delivered: the form of R74, R76 and R77. -/
theorem State.emit_deliver_eq (s : State) (e : Event TErr) (r : Result TErr) :
    (s.emit e).deliver r =
      { s with log := s.log ++ [e, .done r], rsp := s.rsp ++ [r], phase := .idle } := by
  simp [State.emit, State.deliver]

/-- A request and the exchange it starts (R75). -/
theorem State.emit_startExchange_eq (s : State) (e : Event TErr) (who : Awaiting) (cmd : Frame3) :
    (s.emit e).startExchange who cmd =
      { s with
        log := s.log ++ [e, .xfer cmd], xout := s.xout ++ [cmd], phase := .exchanging cmd, awaiting := who } := by
  simp [State.emit, State.startExchange]

/-- `Answer-Frame` and `Answer-Error` (R76, R77) in one: the answer's event, and the result it gives. -/
theorem State.answer_caller_eq {s : State} (hawaiting : s.awaiting = .caller) (a : Answer TErr) :
    s.answer a =
      { s with log := s.log ++ [a.event, .done a.result], rsp := s.rsp ++ [a.result], phase := .idle } := by
  rw [State.answer_caller hawaiting, State.emit_deliver_eq]

theorem step_of_answer_caller {s : State} {cmd : Frame3} {a : Answer TErr} {rest : List (Answer TErr)}
    (hinvoked : s.invoked = none) (hfault : s.fault = none) (hphase : s.phase = .exchanging cmd)
    (hawaiting : s.awaiting = .caller) (hearly : s.nextIsEarly = false) (hxin : s.xin = a :: rest) :
    step s = .next { s with
      xin := rest, log := s.log ++ [a.event, .done a.result], rsp := s.rsp ++ [a.result], phase := .idle } := by
  rw [step_of_answer hinvoked hfault hphase hearly hxin, State.answer_caller_eq (s := { s with xin := rest }) hawaiting]

/-- Settles O29: the phase `Idle` that delivering leaves is the one it was. -/
theorem requestInvalidStep : Obligations.RequestInvalidStep := by
  intro c s hfault hphase hinvalid
  rw [exec, execReadChannel_of_invalid hfault hphase (encodeCommand_eq_none_iff_range.2 hinvalid),
    State.emit_deliver_eq, ← hphase]

/-- Settles O30: a valid channel has a command frame, and its exchange starts. -/
theorem requestValidStep : Obligations.RequestValidStep := by
  intro c s hfault hphase hlo hhi
  have hc := encodeCommand_of_valid (validate_eq_true_iff.2 ⟨hlo, hhi⟩)
  exact ⟨_, hc, by rw [exec, execReadChannel_of_valid hfault hphase hc, State.emit_startExchange_eq]⟩

/-- Settles O31: the answer taken is a frame. -/
theorem answerFrameStep : Obligations.AnswerFrameStep :=
  fun _ _ _ _ hinvoked hfault hphase hawaiting hearly hxin =>
    step_of_answer_caller hinvoked hfault hphase hawaiting hearly hxin

/-- Settles O32: the answer taken is a failure, handed on as it is. -/
theorem answerErrorStep : Obligations.AnswerErrorStep :=
  fun _ _ _ _ hinvoked hfault hphase hawaiting hearly hxin =>
    step_of_answer_caller hinvoked hfault hphase hawaiting hearly hxin

/-- Settles O33: during an exchange the channel is not even checked. -/
theorem requestOverlapStep : Obligations.RequestOverlapStep :=
  fun c _ _ hfault hphase => execReadChannel_of_exchanging c hfault hphase

/-! ## Which steps are enabled (R79) -/

theorem step_of_fault {s : State} (hinvoked : s.invoked = none) (hfault : s.fault = some .overlappingRequest) :
    step s = .fault .overlappingRequest := by
  simp only [step, State.fetch, hinvoked, hfault]

theorem execExchange_of_fault {cmd : Frame3} {s : State} (hcmd : isCmd24 cmd = true)
    (hfault : s.fault = some .overlappingRequest) : execExchange cmd s = .fault .overlappingRequest := by
  simp only [execExchange, hcmd, hfault, if_true]

theorem execReadChannel_of_fault {s : State} (c : Int) (hfault : s.fault = some .overlappingRequest) :
    execReadChannel c s = .fault .overlappingRequest := by
  simp only [execReadChannel, hfault]

/-- Settles O34, case by case of the fault and the phase. -/
theorem enabledSteps : Obligations.EnabledSteps := by
  intro s hinvoked
  refine ⟨fun hfault => ⟨?_, State.not_final_of_fault hfault⟩, fun hfault hphase => ⟨?_, ?_⟩,
    fun cmd hfault hphase => ⟨?_, ?_, ?_⟩⟩
  · obtain ⟨f, hf⟩ := Option.ne_none_iff_exists'.1 hfault
    cases f
    exact step_of_fault hinvoked hf
  · exact step_of_no_request hinvoked hfault hphase
  · exact fun r rest hreq => step_of_request hinvoked hfault hphase hreq
  · exact fun r rest hreq hearly => step_of_early_request hinvoked hfault hphase hearly hreq
  · exact step_of_no_answer hinvoked hfault hphase
  · exact fun a rest hearly hxin => ⟨_, step_of_answer hinvoked hfault hphase hearly hxin, State.answer_phase _ a,
      State.answer_xin _ a⟩

/-! ## EXCHANGE invoked by itself (R72, R35) -/

/-- Settles O24: it is the named operation, field by field. -/
theorem exchangeStarts : Obligations.ExchangeStarts :=
  fun _ _ hcmd hfault hphase => execExchange_of_idle hcmd hfault hphase

/-- EXCHANGE invoked by itself has sent its frame (its XOUT step, R35). -/
def State.afterInvocation (s : State) (cmd : Frame3) : State :=
  State.startExchange { s with invoked := none } .invoker cmd

section
variable {s : State} {cmd : Frame3}

theorem step_of_invoked_exchange (hcmd : isCmd24 cmd = true) (hfault : s.fault = none) (hphase : s.phase = .idle)
    (hinvoked : s.invoked = some (.operation (.exchange cmd))) : step s = .next (s.afterInvocation cmd) :=
  (step_of_invoked hinvoked rfl).trans (execExchange_of_idle hcmd hfault hphase)

/-- Its XIN step: the answer's event is logged, the answer is returned, and the block is back where it was. -/
theorem State.answer_afterInvocation_eq (hphase : s.phase = .idle) (hawaiting : s.awaiting = .caller)
    (a : Answer TErr) (rest : List (Answer TErr)) :
    State.answer { s.afterInvocation cmd with xin := rest } a =
      { s with
        invoked := none, xin := rest, log := s.log ++ [.xfer cmd, a.event], xout := s.xout ++ [cmd],
        returns := s.returns ++ [a.returned] } := by
  rw [State.answer_invoker rfl]
  simp [State.afterInvocation, State.startExchange, State.emit, State.endWith, State.settle, hphase, hawaiting]

theorem step_afterInvocation_of_answer (hfault : s.fault = none) (hphase : s.phase = .idle)
    (hawaiting : s.awaiting = .caller) (hearly : s.nextIsEarly = false) {a : Answer TErr} {rest : List (Answer TErr)}
    (hxin : s.xin = a :: rest) :
    step (s.afterInvocation cmd) = .next { s with
      invoked := none, xin := rest, log := s.log ++ [.xfer cmd, a.event], xout := s.xout ++ [cmd],
      returns := s.returns ++ [a.returned] } := by
  rw [step_of_answer (s := s.afterInvocation cmd) rfl hfault rfl hearly hxin,
    State.answer_afterInvocation_eq hphase hawaiting]

end

/-- Settles O25: the XOUT step, and then the XIN step with each answer or no step without one. -/
theorem exchangeRunsToItsAnswer : Obligations.ExchangeRunsToItsAnswer := by
  refine ⟨fun cmd s t hexec => ?_, fun cmd s hcmd hfault hphase hawaiting hinvoked hearly => ?_⟩
  · obtain ⟨hcmd, -⟩ := execExchange_next_cases hexec
    exact isCmd24_iff_exists.1 hcmd
  · exact ⟨s.afterInvocation cmd, step_of_invoked_exchange hcmd hfault hphase hinvoked, rfl, rfl, rfl, rfl, rfl,
      fun hxin => step_of_no_answer rfl hfault rfl hearly hxin,
      fun resp rest hxin => step_afterInvocation_of_answer hfault hphase hawaiting hearly hxin,
      fun e rest hxin => step_afterInvocation_of_answer hfault hphase hawaiting hearly hxin⟩

/-! ## The frame of EXCHANGE and READ_CHANNEL -/

/-- Settles O38: each of their five effects does at most one of sending a frame, delivering a result and recording the
fault. -/
theorem transactionFrame : Obligations.TransactionFrame := by
  rintro i s t (⟨cmd, rfl⟩ | ⟨c, rfl⟩) hexec
  · obtain ⟨-, -, ⟨-, rfl⟩ | ⟨other, -, rfl⟩⟩ := execExchange_next_cases hexec
    · exact ⟨rfl, rfl, rfl, rfl, fun _ => ⟨rfl, rfl⟩, fun hne => absurd rfl hne, fun hne => absurd rfl hne⟩
    · exact ⟨rfl, rfl, rfl, rfl, fun hne => absurd rfl hne, fun hne => absurd rfl hne, fun _ => ⟨rfl, rfl, rfl⟩⟩
  · obtain ⟨-, ⟨-, -, rfl⟩ | ⟨cmd, -, -, rfl⟩ | ⟨cmd, -, rfl⟩⟩ := execReadChannel_next_cases hexec
    · exact ⟨rfl, rfl, rfl, rfl, fun hne => absurd rfl hne, fun _ => ⟨rfl, rfl, rfl⟩, fun hne => absurd rfl hne⟩
    · exact ⟨rfl, rfl, rfl, rfl, fun _ => ⟨rfl, rfl⟩, fun hne => absurd rfl hne, fun hne => absurd rfl hne⟩
    · exact ⟨rfl, rfl, rfl, rfl, fun hne => absurd rfl hne, fun hne => absurd rfl hne, fun _ => ⟨rfl, rfl, rfl⟩⟩

/-! ## The machine against the step relation (R74 to R78) -/

/-! ### What each step does to the block -/

theorem State.block_requestInvalid {s : State} (hphase : s.phase = .idle) (c : Int) :
    ((s.emit (.req c)).deliver .invalidChannel).block =
      { s.block with
        log := s.block.log ++ [.req c, .done .invalidChannel], rsp := s.block.rsp ++ [.invalidChannel] } := by
  rw [State.emit_deliver_eq, ← hphase]
  rfl

theorem State.block_requestValid (s : State) (c : Int) (cmd : Frame3) :
    ((s.emit (.req c)).startExchange .caller cmd).block =
      { s.block with
        log := s.block.log ++ [.req c, .xfer cmd], xout := s.block.xout ++ [cmd], phase := .exchanging cmd } := by
  rw [State.emit_startExchange_eq]
  rfl

theorem State.block_answer {s : State} (hawaiting : s.awaiting = .caller) (a : Answer TErr) :
    (s.answer a).block =
      { s.block with
        log := s.block.log ++ [a.event, .done a.result], rsp := s.block.rsp ++ [a.result], phase := .idle } := by
  rw [State.answer_caller_eq hawaiting]
  rfl

/-! ### Each step of the machine is one of the five -/

theorem execReadChannel_refines {c : Int} {s t : State} (hexec : execReadChannel c s = .next t) :
    StepRule (.req c) s.block t.block := by
  obtain ⟨hfault, ⟨hphase, hc, rfl⟩ | ⟨cmd, hphase, hc, rfl⟩ | ⟨cmd, hphase, rfl⟩⟩ := execReadChannel_next_cases hexec
  · rw [State.block_requestInvalid hphase]
    exact .requestInvalid _ c hfault hphase (encodeCommand_eq_none_iff.1 hc)
  · obtain ⟨hvalid, -⟩ := encodeCommand_eq_some_iff.1 hc
    rw [State.block_requestValid]
    exact .requestValid _ c cmd hfault hphase hvalid hc
  · exact .requestOverlap _ cmd c hfault hphase

theorem answer_refines {s : State} {cmd : Frame3} (hawaiting : s.awaiting = .caller) (hfault : s.fault = none)
    (hphase : s.phase = .exchanging cmd) (a : Answer TErr) : StepRule (.xin a) s.block (s.answer a).block := by
  rw [State.block_answer hawaiting]
  cases a with
  | frame resp => exact .answerFrame _ cmd resp hfault hphase
  | error e => exact .answerError _ cmd e hfault hphase

/-- Settles O39: a request taken is R74, R75 or R78, and an answer taken R76 or R77; taking it changes no block. -/
theorem stepRefinesTheRules : Obligations.StepRefinesTheRules := by
  intro s t hinvoked hawaiting hstep
  obtain ⟨_, _, hsome, -⟩ | ⟨-, -, r, rest, -, -, hexec⟩ | ⟨-, hfault, -, cmd, a, rest, hphase, -, rfl⟩ :=
    step_next_cases hstep
  · rw [hinvoked] at hsome
    cases hsome
  · exact ⟨.req r.channel, execReadChannel_refines (s := { s with req := rest }) hexec⟩
  · exact ⟨.xin a, answer_refines (s := { s with xin := rest }) hawaiting hfault hphase a⟩

/-! ### Each of the five is a step of the machine -/

/-- The machine with the choices that bring a request: the caller sends it, early so that an exchange does not keep it
waiting. -/
theorem step_of_only_request {s : State} (hinvoked : s.invoked = none) (hfault : s.fault = none) (c : Int) :
    step { s with req := [⟨c, true⟩], xin := [] } = execReadChannel c { s with req := [], xin := [] } := by
  have hwhen : s.phase = .idle ∨ (true = true ∧ ∃ cmd, s.phase = .exchanging cmd) := by
    cases s.phase with
    | idle => exact .inl rfl
    | exchanging cmd => exact .inr ⟨rfl, cmd, rfl⟩
  exact step_of_request_taken (s := { s with req := [⟨c, true⟩], xin := [] }) hinvoked hfault rfl hwhen

/-- The machine with the choices that bring an answer: the caller sends nothing. -/
theorem step_of_only_answer {s : State} {cmd : Frame3} (hinvoked : s.invoked = none) (hfault : s.fault = none)
    (hphase : s.phase = .exchanging cmd) (a : Answer TErr) :
    step { s with req := [], xin := [a] } = .next (State.answer { s with req := [], xin := [] } a) :=
  step_of_answer (s := { s with req := [], xin := [a] }) hinvoked hfault hphase rfl rfl

/-- Settles O40, rule by rule. -/
theorem rulesAreSteps : Obligations.RulesAreSteps := by
  intro s m b hinvoked hawaiting hrule
  cases hrule with
  | requestInvalid _ c hfault hphase hc =>
    exact ⟨[⟨c, true⟩], [], _, (step_of_only_request hinvoked hfault c).trans
      (execReadChannel_of_invalid hfault hphase (encodeCommand_of_invalid hc)),
      State.block_requestInvalid (s := { s with req := [], xin := [] }) hphase c⟩
  | requestValid _ c cmd hfault hphase _ hc =>
    exact ⟨[⟨c, true⟩], [], _, (step_of_only_request hinvoked hfault c).trans
      (execReadChannel_of_valid hfault hphase hc), State.block_requestValid _ c cmd⟩
  | answerFrame _ cmd resp hfault hphase =>
    exact ⟨[], [.frame resp], _, step_of_only_answer hinvoked hfault hphase (.frame resp),
      State.block_answer (s := { s with req := [], xin := [] }) hawaiting (.frame resp)⟩
  | answerError _ cmd e hfault hphase =>
    exact ⟨[], [.error e], _, step_of_only_answer hinvoked hfault hphase (.error e),
      State.block_answer (s := { s with req := [], xin := [] }) hawaiting (.error e)⟩
  | requestOverlap _ cmd c hfault hphase =>
    exact ⟨[⟨c, true⟩], [], _, (step_of_only_request hinvoked hfault c).trans
      (execReadChannel_of_exchanging c hfault hphase), rfl⟩

/-! ## The steps of one request against READ_CHANNEL (R81) -/

theorem countXfer_append {E : Type} (l l' : List (Event E)) : countXfer (l ++ l') = countXfer l + countXfer l' := by
  rw [countXfer, List.filterMap_append, List.length_append, countXfer, countXfer]

/-- An answer ends an exchange and starts none. -/
theorem State.countXfer_log_answer (s : State) (a : Answer TErr) : countXfer (s.answer a).log = countXfer s.log := by
  have hevent : countXfer [a.event] = 0 := by simp [countXfer, Answer.event_sent]
  cases hawaiting : s.awaiting with
  | caller =>
    rw [State.answer_caller hawaiting, State.deliver_log, State.emit_log, countXfer_append, countXfer_append, hevent]
    rfl
  | invoker =>
    rw [State.answer_invoker hawaiting, State.settle_log, State.endWith_log, State.emit_log, countXfer_append, hevent]
    rfl

/-- Settles O35: an invalid channel's request step delivers at once; a valid one's starts its exchange, and the answer
step delivers what READ_CHANNEL does with that answer. -/
theorem stepsAgreeWithReadChannel : Obligations.StepsAgreeWithReadChannel := by
  intro c early rest a later s hinvoked hfault hphase hreq hxin hearly
  have hstep := step_of_request hinvoked hfault hphase hreq
  cases hc : encodeCommand c with
  | none =>
    have hinvalid : validate c = false := encodeCommand_eq_none_iff.1 hc
    rw [execReadChannel_of_invalid (s := { s with req := rest }) hfault hphase hc] at hstep
    refine ⟨_, hstep, fun _ => ⟨rfl, hxin, ?_, ?_⟩, fun hvalid => ?_⟩
    · rw [readChannel_of_invalid hc]
      rfl
    · rw [State.emit_deliver_eq]
      exact countXfer_append _ _
    · rw [hinvalid] at hvalid
      cases hvalid
  | some cmd =>
    obtain ⟨hvalid, -⟩ := encodeCommand_eq_some_iff.1 hc
    rw [execReadChannel_of_valid (s := { s with req := rest }) hfault hphase hc] at hstep
    refine ⟨_, hstep, fun hinvalid => ?_, fun _ => ⟨rfl, _, step_of_answer hinvoked hfault rfl hearly hxin,
      State.answer_phase _ a, State.answer_xin _ a, ?_, ?_⟩⟩
    · rw [hvalid] at hinvalid
      cases hinvalid
    · rw [State.answer_caller rfl, readChannel_of_encodeCommand hc]
      rfl
    · rw [State.countXfer_log_answer, State.emit_startExchange_eq]
      exact countXfer_append _ _

/-! ## Final states (R80) -/

section
variable {E : Type}

/-- The events of a transaction after its request. -/
def Transaction.followUp : Transaction E → List (Event E)
  | .rejected _ _ => [.done .invalidChannel]
  | .exchanged _ cmd _ a => [.xfer cmd, a.event, .done a.result]

theorem Transaction.events_eq_cons (t : Transaction E) : t.events = .req t.channel :: t.followUp := by
  cases t <;> rfl

theorem Transaction.isReq_followUp (t : Transaction E) : ∀ e ∈ t.followUp, e.isReq = false := by
  cases t with
  | rejected c hc => simp [followUp, Event.isReq, Event.requested]
  | exchanged c cmd hc a => cases a <;> simp [followUp, Answer.event, Event.isReq, Event.requested]

theorem Transaction.filterMap_sent_followUp (t : Transaction E) :
    t.followUp.filterMap Event.sent = (encodeCommand t.channel).toList := by
  rw [← t.filterMap_sent_events, t.events_eq_cons]
  rfl

theorem Transaction.filterMap_delivered_followUp (t : Transaction E) :
    t.followUp.filterMap Event.delivered = [t.result] := by
  rw [← t.filterMap_delivered_events, t.events_eq_cons]
  rfl

/-- Complete transactions begin with a request, so that the events before it end there. -/
theorem eventsOf_transactions (ts : List (Transaction E)) : eventsOf (ts.flatMap Transaction.events) = [] := by
  cases ts with
  | nil => rfl
  | cons t ts =>
    rw [List.flatMap_cons, t.events_eq_cons]
    rfl

theorem Transaction.eventsOf_followUp_append (t : Transaction E) (ts : List (Transaction E)) :
    eventsOf (t.followUp ++ ts.flatMap Transaction.events) = t.followUp := by
  have hnone := eventsOf_transactions ts
  rw [eventsOf] at hnone ⊢
  rw [List.takeWhile_append_of_pos fun e he => by rw [t.isReq_followUp e he]; rfl, hnone, List.append_nil]

/-- R80 asks nothing of events that are no requests. -/
theorem allSettled_append_of_no_req {l log : List (Event E)} (hl : ∀ e ∈ l, e.isReq = false)
    (hlog : allSettled log) : allSettled (l ++ log) := by
  induction l with
  | nil => exact hlog
  | cons e l ih =>
    obtain ⟨he, htail⟩ := List.forall_mem_cons.1 hl
    cases e with
    | req c => cases he
    | xfer cmd => exact ih htail
    | xferOk resp => exact ih htail
    | xferErr e => exact ih htail
    | done r => exact ih htail

/-- A complete transaction settles its request: one frame and one result, or `InvalidChannel` alone. -/
theorem allSettled_transactions (ts : List (Transaction E)) : allSettled (ts.flatMap Transaction.events) := by
  induction ts with
  | nil => trivial
  | cons t ts ih =>
    rw [List.flatMap_cons, t.events_eq_cons, List.cons_append, allSettled, t.eventsOf_followUp_append, countXfer,
      t.filterMap_sent_followUp, t.filterMap_delivered_followUp]
    refine ⟨?_, allSettled_append_of_no_req t.isReq_followUp ih⟩
    cases hc : validate t.channel with
    | true => rw [if_pos rfl, encodeCommand_of_valid hc]; exact ⟨rfl, rfl⟩
    | false =>
      rw [if_neg (by decide), encodeCommand_of_invalid hc, t.result_eq_invalidChannel_iff.2 hc]
      exact ⟨rfl, rfl⟩

end

/-- Settles O43: between two transactions the log is complete transactions alone. -/
theorem idleStatesAreFinal : Obligations.IdleStatesAreFinal := by
  intro s hs
  constructor
  · rintro ⟨hfault, hphase, -⟩
    exact ⟨hfault, hphase⟩
  · rintro ⟨hfault, hphase⟩
    obtain ⟨ts, tail, hlog, htail⟩ := exists_transactions (hs.logPhase_of_idle hfault hphase)
    cases htail with
    | between =>
      rw [List.append_nil] at hlog
      exact ⟨hfault, hphase, hlog ▸ allSettled_transactions ts⟩

/-! ## No step reads the past (R83)

The past of `h` can be put before a state's own before a step or after it. -/

theorem State.after_forget (s : State) : s.after s.forget = s := by
  simp [State.after, State.forget]

section
variable (h u : State)

@[simp] theorem State.after_phase : (h.after u).phase = u.phase := rfl
@[simp] theorem State.after_fault : (h.after u).fault = u.fault := rfl
@[simp] theorem State.after_req : (h.after u).req = u.req := rfl
@[simp] theorem State.after_xin : (h.after u).xin = u.xin := rfl
@[simp] theorem State.after_invoked : (h.after u).invoked = u.invoked := rfl
@[simp] theorem State.after_nextIsEarly : (h.after u).nextIsEarly = u.nextIsEarly := rfl

/-! ### The operations over the state -/

theorem State.after_emit (e : Event TErr) : (h.after u).emit e = h.after (u.emit e) := by
  simp [State.after, State.emit]

theorem State.after_startExchange (who : Awaiting) (cmd : Frame3) :
    (h.after u).startExchange who cmd = h.after (u.startExchange who cmd) := by
  simp [State.after, State.startExchange, State.emit]

theorem State.after_deliver (r : Result TErr) : (h.after u).deliver r = h.after (u.deliver r) := by
  simp [State.after, State.deliver, State.emit]

theorem State.after_recordOverlap : (h.after u).recordOverlap = h.after u.recordOverlap :=
  rfl

theorem State.after_endWith (v : Returned TErr) : (h.after u).endWith v = h.after (u.endWith v) := by
  simp [State.after, State.endWith]

theorem State.after_settle : (h.after u).settle = h.after u.settle :=
  rfl

theorem State.after_answer (a : Answer TErr) : (h.after u).answer a = h.after (u.answer a) := by
  cases hawaiting : u.awaiting with
  | caller =>
    rw [State.answer_caller hawaiting, State.answer_caller (s := h.after u) hawaiting, State.after_emit,
      State.after_deliver]
  | invoker =>
    rw [State.answer_invoker hawaiting, State.answer_invoker (s := h.after u) hawaiting, State.after_emit,
      State.after_endWith, State.after_settle]

/-! ### The operations of the table -/

theorem execExchange_after (cmd : Frame3) : execExchange cmd (h.after u) = mapNext h.after (execExchange cmd u) := by
  by_cases hcmd : isCmd24 cmd = true
  · cases hfault : u.fault with
    | some f =>
      cases f
      rw [execExchange_of_fault hcmd hfault, execExchange_of_fault (s := h.after u) hcmd hfault, mapNext]
    | none =>
      cases hphase : u.phase with
      | idle =>
        rw [execExchange_of_idle hcmd hfault hphase, execExchange_of_idle (s := h.after u) hcmd hfault hphase,
          State.after_startExchange, mapNext]
      | exchanging other =>
        rw [execExchange_of_exchanging hcmd hfault hphase,
          execExchange_of_exchanging (s := h.after u) hcmd hfault hphase, State.after_recordOverlap, mapNext]
  · rw [execExchange_of_not_cmd24 hcmd, execExchange_of_not_cmd24 hcmd, mapNext]

theorem execReadChannel_after (c : Int) :
    execReadChannel c (h.after u) = mapNext h.after (execReadChannel c u) := by
  cases hfault : u.fault with
  | some f =>
    cases f
    rw [execReadChannel_of_fault c hfault, execReadChannel_of_fault (s := h.after u) c hfault, mapNext]
  | none =>
    cases hphase : u.phase with
    | idle =>
      cases hc : encodeCommand c with
      | none =>
        rw [execReadChannel_of_invalid hfault hphase hc,
          execReadChannel_of_invalid (s := h.after u) hfault hphase hc, State.after_emit, State.after_deliver, mapNext]
      | some cmd =>
        rw [execReadChannel_of_valid hfault hphase hc, execReadChannel_of_valid (s := h.after u) hfault hphase hc,
          State.after_emit, State.after_startExchange, mapNext]
    | exchanging cmd =>
      rw [execReadChannel_of_exchanging c hfault hphase,
        execReadChannel_of_exchanging (s := h.after u) c hfault hphase, State.after_emit, State.after_recordOverlap,
        mapNext]

theorem exec_after (i : Instr) : exec i (h.after u) = mapNext h.after (exec i u) := by
  obtain ⟨v, hpure⟩ | ⟨cmd, rfl⟩ | ⟨c, rfl⟩ := exec_pure_or_transaction i
  · rw [hpure, hpure, State.after_endWith, mapNext]
  · exact execExchange_after h u cmd
  · exact execReadChannel_after h u c

/-! ### The step -/

/-- Change the state in which what is fetched is run. -/
def Fetched.mapState (f : State → State) : Fetched → Fetched
  | .run i s => .run i (f s)
  | .answer a s => .answer a (f s)
  | .stop f => .stop f
  | .reject e => .reject e

theorem State.after_fetchRequest (f : Fault) :
    (h.after u).fetchRequest f = (u.fetchRequest f).mapState h.after := by
  rw [State.fetchRequest, State.fetchRequest, State.after_req]
  cases u.req <;> rfl

theorem State.after_fetchAnswer : (h.after u).fetchAnswer = u.fetchAnswer.mapState h.after := by
  rw [State.fetchAnswer, State.fetchAnswer, State.after_xin]
  cases u.xin <;> rfl

/-- What is fetched depends on the invocation, the fault, the phase and the messages to come alone. -/
theorem State.after_fetch : (h.after u).fetch = u.fetch.mapState h.after := by
  rw [State.fetch, State.fetch, State.after_invoked, State.after_fault, State.after_phase, State.after_nextIsEarly,
    State.after_fetchRequest, State.after_fetchRequest, State.after_fetchAnswer]
  cases u.invoked with
  | some inv => cases hinstr : inv.instr <;> simp only [hinstr] <;> rfl
  | none =>
    cases u.fault with
    | some f => cases f; rfl
    | none =>
      cases u.phase with
      | idle => rfl
      | exchanging cmd => cases u.nextIsEarly <;> rfl

theorem step_after : step (h.after u) = mapNext h.after (step u) := by
  rw [step, step, State.after_fetch]
  cases u.fetch with
  | run i s => exact exec_after h s i
  | answer a s => exact congrArg Host.Outcome.next (State.after_answer h s a)
  | stop f => rfl
  | reject e => rfl

end

/-- Settles O52: a state is its past put before the same state without it. -/
theorem stepsDoNotReadThePast : Obligations.StepsDoNotReadThePast := by
  intro s
  rw [← step_after, State.after_forget]

end Sys2Proof.Machine
end

section
/-! PROOFS. The exceptions (60_exceptions.md): no operation looks at a failure's payload (rule R86), when each error is
delivered (rules R85, R86), the state after a result (rule R91), the fault (rule R87), the result tags (rule R84), and
several instances (rule R96). -/

namespace Sys2Proof.Machine

/-! ## The payload of a failure is opaque (R86, D5)

Payloads can be renamed before a step or after it. -/

/-! ### What an answer gives -/

section
variable {E E' : Type} (f : E → E')

theorem Answer.event_rename (a : Answer E) : (a.rename f).event = a.event.rename f := by
  cases a <;> rfl

theorem Answer.result_rename (a : Answer E) : (a.rename f).result = a.result.rename f := by
  cases a <;> rfl

theorem Answer.returned_rename (a : Answer E) : (a.rename f).returned = a.returned.rename f := by
  cases a <;> rfl

/-- READ_CHANNEL hands the transport's failure on as it is. -/
theorem readChannel_rename (xfer : Frame3 → Answer E) (c : Int) :
    readChannel (fun cmd => (xfer cmd).rename f) c = (readChannel xfer c).rename f := by
  cases hc : encodeCommand c with
  | none => rw [readChannel_of_invalid hc, readChannel_of_invalid hc, Result.rename]
  | some cmd => rw [readChannel_of_encodeCommand hc, readChannel_of_encodeCommand hc, Answer.result_rename]

/-- Each of the five steps is one of the same rule with the payloads renamed. -/
theorem StepRule.rename {m : Message E} {b b' : Block E} (h : StepRule m b b') :
    StepRule (m.rename f) (b.rename f) (b'.rename f) := by
  cases h with
  | requestInvalid _ c hfault hphase hc =>
    simpa [Message.rename, Block.rename, Event.rename, Result.rename] using
      StepRule.requestInvalid (b.rename f) c hfault hphase hc
  | requestValid _ c cmd hfault hphase hvalid hc =>
    simpa [Message.rename, Block.rename, Event.rename] using
      StepRule.requestValid (b.rename f) c cmd hfault hphase hvalid hc
  | answerFrame _ cmd resp hfault hphase =>
    simpa [Message.rename, Answer.rename, Block.rename, Event.rename, Result.rename] using
      StepRule.answerFrame (b.rename f) cmd resp hfault hphase
  | answerError _ cmd e hfault hphase =>
    simpa [Message.rename, Answer.rename, Block.rename, Event.rename, Result.rename] using
      StepRule.answerError (b.rename f) cmd (f e) hfault hphase
  | requestOverlap _ cmd c hfault hphase =>
    simpa [Message.rename, Block.rename, Event.rename] using StepRule.requestOverlap (b.rename f) cmd c hfault hphase

end

section
variable (f : TErr → TErr) (u : State)

@[simp] theorem State.rename_phase : (u.rename f).phase = u.phase := rfl
@[simp] theorem State.rename_fault : (u.rename f).fault = u.fault := rfl
@[simp] theorem State.rename_req : (u.rename f).req = u.req := rfl
@[simp] theorem State.rename_xin : (u.rename f).xin = u.xin.map (Answer.rename f) := rfl
@[simp] theorem State.rename_invoked : (u.rename f).invoked = u.invoked := rfl
@[simp] theorem State.rename_nextIsEarly : (u.rename f).nextIsEarly = u.nextIsEarly := rfl

/-! ### The operations over the state -/

theorem State.rename_emit (e : Event TErr) : (u.emit e).rename f = (u.rename f).emit (e.rename f) := by
  simp [State.rename, State.emit]

theorem State.rename_startExchange (who : Awaiting) (cmd : Frame3) :
    (u.startExchange who cmd).rename f = (u.rename f).startExchange who cmd := by
  simp [State.rename, State.startExchange, State.emit, Event.rename]

theorem State.rename_deliver (r : Result TErr) : (u.deliver r).rename f = (u.rename f).deliver (r.rename f) := by
  simp [State.rename, State.deliver, State.emit, Event.rename]

theorem State.rename_recordOverlap : u.recordOverlap.rename f = (u.rename f).recordOverlap :=
  rfl

theorem State.rename_endWith (v : Returned TErr) : (u.endWith v).rename f = (u.rename f).endWith (v.rename f) := by
  simp [State.rename, State.endWith]

theorem State.rename_settle : u.settle.rename f = (u.rename f).settle :=
  rfl

theorem State.rename_answer (a : Answer TErr) : (u.answer a).rename f = (u.rename f).answer (a.rename f) := by
  cases hawaiting : u.awaiting with
  | caller =>
    rw [State.answer_caller hawaiting, State.answer_caller (s := u.rename f) hawaiting, State.rename_deliver,
      State.rename_emit, Answer.event_rename, Answer.result_rename]
  | invoker =>
    rw [State.answer_invoker hawaiting, State.answer_invoker (s := u.rename f) hawaiting, State.rename_settle,
      State.rename_endWith, State.rename_emit, Answer.event_rename, Answer.returned_rename]

/-! ### The operations of the table -/

theorem execExchange_rename (cmd : Frame3) :
    execExchange cmd (u.rename f) = mapNext (State.rename f) (execExchange cmd u) := by
  rw [execExchange, execExchange, State.rename_fault, State.rename_phase, ← State.rename_startExchange,
    ← State.rename_recordOverlap]
  cases isCmd24 cmd with
  | false => rfl
  | true =>
    cases u.fault with
    | some r => cases r; rfl
    | none => cases u.phase <;> rfl

theorem execReadChannel_rename (c : Int) :
    execReadChannel c (u.rename f) = mapNext (State.rename f) (execReadChannel c u) := by
  have hreq : (u.rename f).emit (.req c) = (u.emit (.req c)).rename f := (State.rename_emit f u (.req c)).symm
  rw [execReadChannel, execReadChannel, State.rename_fault, State.rename_phase, hreq]
  cases u.fault with
  | some r => cases r; rfl
  | none =>
    cases u.phase with
    | idle =>
      cases encodeCommand c with
      | none => exact congrArg Host.Outcome.next (State.rename_deliver f _ .invalidChannel).symm
      | some cmd => exact congrArg Host.Outcome.next (State.rename_startExchange f _ .caller cmd).symm
    | exchanging cmd => rfl

/-- An operation that ends with a value in every state passes a renaming on when the value holds no payload. -/
theorem exec_rename_of_value {i : Instr} {v : Returned TErr} (hexec : ∀ s, exec i s = .next (s.endWith v))
    (hv : v.rename f = v) : exec i (u.rename f) = mapNext (State.rename f) (exec i u) := by
  rw [hexec, hexec, mapNext, State.rename_endWith, hv]

theorem exec_rename (i : Instr) : exec i (u.rename f) = mapNext (State.rename f) (exec i u) := by
  cases i with
  | validate c => exact exec_rename_of_value f u (exec_validate c) rfl
  | buildConfig ch => exact exec_rename_of_value f u (exec_buildConfig ch) rfl
  | packCommand config => exact exec_rename_of_value f u (exec_packCommand config) rfl
  | encodeCommand c => exact exec_rename_of_value f u (exec_encodeCommand c) (by cases encodeCommand c <;> rfl)
  | exchange cmd => exact execExchange_rename f u cmd
  | decodeResponse r => exact exec_rename_of_value f u (exec_decodeResponse r) rfl
  | readChannel c => exact execReadChannel_rename f u c

/-! ### The step -/

/-- What is fetched, with every payload renamed. -/
def Fetched.rename : Fetched → Fetched
  | .run i s => .run i (s.rename f)
  | .answer a s => .answer (a.rename f) (s.rename f)
  | .stop r => .stop r
  | .reject e => .reject e

theorem State.rename_fetchRequest (r : Fault) : (u.rename f).fetchRequest r = (u.fetchRequest r).rename f := by
  rw [State.fetchRequest, State.fetchRequest, State.rename_req]
  cases u.req <;> rfl

theorem State.rename_fetchAnswer : (u.rename f).fetchAnswer = u.fetchAnswer.rename f := by
  rw [State.fetchAnswer, State.fetchAnswer, State.rename_xin]
  cases u.xin <;> rfl

/-- Which step is next does not depend on a payload. -/
theorem State.rename_fetch : (u.rename f).fetch = u.fetch.rename f := by
  rw [State.fetch, State.fetch, State.rename_invoked, State.rename_fault, State.rename_phase,
    State.rename_nextIsEarly, State.rename_fetchRequest, State.rename_fetchRequest, State.rename_fetchAnswer]
  cases u.invoked with
  | some inv => cases hinstr : inv.instr <;> simp only [hinstr] <;> rfl
  | none =>
    cases u.fault with
    | some r => cases r; rfl
    | none =>
      cases u.phase with
      | idle => rfl
      | exchanging cmd => cases u.nextIsEarly <;> rfl

theorem step_rename : step (u.rename f) = mapNext (State.rename f) (step u) := by
  rw [step, step, State.rename_fetch]
  cases u.fetch with
  | run i s => exact exec_rename f s i
  | answer a s => exact congrArg Host.Outcome.next (State.rename_answer f s a).symm
  | stop r => rfl
  | reject e => rfl

end

/-- Settles O53: the machine operation by operation, READ_CHANNEL through its one answer, and the five rules. -/
theorem payloadIsOpaque : Obligations.PayloadIsOpaque :=
  ⟨step_rename, fun _ _ f => ⟨readChannel_rename f, fun _ _ _ => StepRule.rename f⟩⟩

/-! ## What is delivered, and what holds after it (R85, R86, R91) -/

/-- The result the next step of the block delivers: InvalidChannel for a request in `Idle` outside 0..7, the answer's
result in `Exchanging`, and else none. -/
def State.dueResult (s : State) : Option (Result TErr) :=
  match s.phase with
  | .idle => if s.req.head?.any fun r => !validate r.channel then some .invalidChannel else none
  | .exchanging _ => if s.nextIsEarly then none else s.xin.head?.map Answer.result

/-- A step of the block delivers the result due and no other. -/
theorem step_rsp {s t : State} (hinvoked : s.invoked = none) (hawaiting : s.awaiting = .caller)
    (hstep : step s = .next t) : t.rsp = s.rsp ++ s.dueResult.toList := by
  obtain ⟨_, _, hsome, -⟩ | ⟨-, -, r, rest, hreq, hwhen, hexec⟩ | ⟨-, -, hearly, cmd, a, rest, hphase, hxin, rfl⟩ :=
    step_next_cases hstep
  · rw [hinvoked] at hsome
    cases hsome
  · obtain ⟨-, ⟨hphase, hc, rfl⟩ | ⟨cmd, hphase, hc, rfl⟩ | ⟨cmd, hphase, rfl⟩⟩ := execReadChannel_next_cases hexec
    · have hidle : s.phase = .idle := hphase
      simp [State.dueResult, hidle, hreq, encodeCommand_eq_none_iff.1 hc]
    · have hidle : s.phase = .idle := hphase
      obtain ⟨hvalid, -⟩ := encodeCommand_eq_some_iff.1 hc
      simp [State.dueResult, hidle, hreq, hvalid]
    · have hexchanging : s.phase = .exchanging cmd := hphase
      have hearly : s.nextIsEarly = true := by simpa [State.nextIsEarly, hreq, hexchanging] using hwhen
      simp [State.dueResult, hexchanging, hearly]
  · rw [State.answer_caller_eq (s := { s with xin := rest }) hawaiting]
    simp [State.dueResult, hphase, hearly, hxin]

theorem State.dueResult_eq_invalidChannel_iff {s : State} :
    s.dueResult = some .invalidChannel ↔
      s.phase = .idle ∧ ∃ r rest, s.req = r :: rest ∧ (r.channel < 0 ∨ 7 < r.channel) := by
  simp only [State.dueResult, ← validate_eq_false_iff]
  cases s.phase with
  | idle => cases s.req <;> simp
  | exchanging cmd => simp [Answer.result_ne_invalidChannel]

theorem State.dueResult_eq_transportError_iff {s : State} {e : TErr} :
    s.dueResult = some (.transportError e) ↔
      (∃ cmd, s.phase = .exchanging cmd) ∧ s.nextIsEarly = false ∧ s.xin.head? = some (.error e) := by
  have hresult : ∀ a : Answer TErr, a.result = .transportError e ↔ a = .error e := fun a => by
    cases a <;> simp [Answer.result]
  cases hphase : s.phase with
  | idle => simp [State.dueResult, hphase]
  | exchanging cmd => simp [State.dueResult, hphase, hresult]

/-- Every effect that delivers a result leaves `Idle` without a fault, and sends no frame. -/
theorem StepEffect.after_result {u t : State} (h : StepEffect u t) (hrsp : t.rsp ≠ u.rsp) :
    t.phase = .idle ∧ t.fault = none ∧ t.xout = u.xout := by
  cases h with
  | ends v => exact absurd rfl hrsp
  | invokes cmd => exact absurd rfl hrsp
  | invokesOverlap other => exact absurd rfl hrsp
  | requestInvalid c hfault => exact ⟨rfl, hfault, rfl⟩
  | requestValid c cmd => exact absurd rfl hrsp
  | requestOverlap c cmd => exact absurd rfl hrsp
  | answers a cmd hfault => exact ⟨State.answer_phase u a, (State.answer_fault u a).trans hfault, State.answer_xout u a⟩

theorem step_after_result {s t : State} (hstep : step s = .next t) (hrsp : t.rsp ≠ s.rsp) :
    t.phase = .idle ∧ t.fault = none ∧ t.xout = s.xout := by
  obtain ⟨_, _, _, heffect⟩ := step_next_effect hstep
  exact heffect.after_result hrsp

/-- Settles O36: each error is delivered exactly when it is the result due, and no frame is sent with a result. -/
theorem errorsAreDeliveredExactly : Obligations.ErrorsAreDeliveredExactly := by
  intro s t hinvoked hawaiting hstep
  have hdelivers : ∀ r, t.rsp = s.rsp ++ [r] ↔ s.dueResult = some r := fun r => by
    rw [step_rsp hinvoked hawaiting hstep, List.append_cancel_left_eq, Option.toList_eq_singleton_iff]
  refine ⟨(hdelivers _).trans State.dueResult_eq_invalidChannel_iff, fun hrsp => ?_,
    fun e => (hdelivers _).trans State.dueResult_eq_transportError_iff⟩
  obtain ⟨-, -, hxout⟩ := step_after_result hstep (by simp [hrsp])
  exact hxout

/-- In `Idle` without a fault a request of any channel is accepted (R74, R75). -/
theorem exists_execReadChannel_of_idle {s : State} (hfault : s.fault = none) (hphase : s.phase = .idle) (c : Int) :
    ∃ t, execReadChannel c s = .next t ∧ t.fault = none := by
  cases hc : encodeCommand c with
  | none => exact ⟨_, execReadChannel_of_invalid hfault hphase hc, hfault⟩
  | some cmd => exact ⟨_, execReadChannel_of_valid hfault hphase hc, hfault⟩

/-- Settles O51: the state after a result is one that accepts every request. -/
theorem afterAResultIdle : Obligations.AfterAResultIdle := by
  intro s t hstep hrsp
  obtain ⟨hphase, hfault, hxout⟩ := step_after_result hstep hrsp
  exact ⟨hphase, hfault, hxout, exists_execReadChannel_of_idle hfault hphase⟩

/-! ## The fault (R87) -/

/-- The two effects that record the fault are those of a second request or exchange during an exchange, and they do
nothing else that can be seen at the ports. -/
theorem StepEffect.of_fault_recorded {u t : State} (h : StepEffect u t) (hnone : u.fault = none)
    (hfault : t.fault ≠ none) :
    (∃ cmd, u.phase = .exchanging cmd) ∧ t.phase = u.phase ∧ t.xout = u.xout ∧ t.rsp = u.rsp ∧ t.xin = u.xin := by
  cases h with
  | ends v => exact absurd hnone hfault
  | invokes cmd => exact absurd hnone hfault
  | invokesOverlap other _ hphase => exact ⟨⟨other, hphase⟩, rfl, rfl, rfl, rfl⟩
  | requestInvalid c => exact absurd hnone hfault
  | requestValid c cmd => exact absurd hnone hfault
  | requestOverlap c cmd _ hphase => exact ⟨⟨cmd, hphase⟩, rfl, rfl, rfl, rfl⟩
  | answers a cmd => exact absurd ((State.answer_fault u a).trans hnone) hfault

/-- Settles O49: an invocation or a request recorded it, and taking either leaves the answers to come. -/
theorem faultOnlyInFlight : Obligations.FaultOnlyInFlight := by
  intro s t hstep hnone hfault
  obtain ⟨_, _, -, -, hexec⟩ | ⟨-, -, _, rest, -, -, hexec⟩ | ⟨-, -, -, _, a, rest, -, -, rfl⟩ := step_next_cases hstep
  · exact (exec_next_effect hexec).of_fault_recorded hnone hfault
  · exact (execReadChannel_next_effect hexec).of_fault_recorded hnone hfault
  · exact absurd ((State.answer_fault { s with xin := rest } a).trans hnone) hfault

/-! ## Several instances (R96, D26) -/

/-- If a step of block k among several answers next, it is the own step of that block, put in its place. -/
theorem stepInstance_next_cases {k : Nat} {blocks blocks' : List State}
    (h : stepInstance k blocks = .next blocks') :
    ∃ s t, blocks[k]? = some s ∧ step s = .next t ∧ blocks' = blocks.set k t := by
  unfold stepInstance at h
  split at h
  · cases h
  · rename_i s hs
    split at h
    · rename_i t ht
      injection h with h
      exact ⟨s, t, hs, ht, h.symm⟩
    · cases h
    · cases h

/-- Settles O56: writing one place of a list leaves the others and the length. -/
theorem instancesAreIndependent : Obligations.InstancesAreIndependent := by
  intro k blocks blocks' h
  obtain ⟨s, t, hs, ht, rfl⟩ := stepInstance_next_cases h
  obtain ⟨hk, -⟩ := List.getElem?_eq_some_iff.1 hs
  exact ⟨List.length_set, fun j hj => List.getElem?_set_ne hj.symm, s, t, hs, ht, List.getElem?_set_self hk⟩

/-! ## The result tags (R84, D4) -/

section
variable {E : Type}

theorem Result.tag_eq_one_iff (r : Result E) : r.tag = 1 ↔ r = .invalidChannel := by
  cases r <;> simp [Result.tag]

theorem readChannel_eq_invalidChannel_iff (xfer : Frame3 → Answer E) (c : Int) :
    readChannel xfer c = .invalidChannel ↔ encodeCommand c = none := by
  cases hc : encodeCommand c with
  | none => simp [readChannel_of_invalid hc]
  | some cmd => simp [readChannel_of_encodeCommand hc, Answer.result_ne_invalidChannel]

end

/-- Settles O37: the three tags by definition, and tag 1 is InvalidChannel's, which no answer gives. -/
theorem resultTags : Obligations.ResultTags :=
  fun _ => ⟨fun _ => rfl, rfl, fun _ => rfl, fun xfer c =>
    (Result.tag_eq_one_iff _).trans ((readChannel_eq_invalidChannel_iff xfer c).trans encodeCommand_eq_none_iff_range)⟩

end Sys2Proof.Machine
end

section
/-! PROOFS. Reset and hazards (70_reset_and_hazards.md): the first steps after reset (rule R99), an exchange in flight
and what cannot end it (rules R102, R103, R105), and the timeline of the bit periods (rule R108). -/

namespace Sys2Proof.Machine

/-! ## The timeline of the bit periods (R108) -/

/-- Period by period: the command's pattern `0000011ccc00000000000000` (R45), read from its most significant bit. -/
theorem wireBit_packCommand_buildConfig (ch : Channel) (k : Fin 24) :
    wireBit (packCommand (buildConfig ch)) k = (sendsIn k).bit ch := by
  rw [wireBit, toWord_packCommand_buildConfig, BitVec.getLsbD_append, BitVec.getLsbD_append]
  fin_cases k <;> rfl

theorem sampleBitIn_eq_some_iff {k : Fin 24} {j : Fin 12} : sampleBitIn k = some j ↔ k.val + j.val = 23 := by
  rw [sampleBitIn, Option.ite_none_right_eq_some, Option.some_inj, Fin.ext_iff]
  dsimp only
  omega

theorem sampleBitIn_eq_none {k : Fin 24} (hk : k.val < 12) : sampleBitIn k = none :=
  if_neg (Nat.not_le_of_lt hk)

/-- The sample is `W[11:0]` (R46), and period `k` carries `W[23 - k]` (R29). -/
theorem wireBit_eq_getLsbD_decodeResponse (r : Frame3) {k : Fin 24} {j : Fin 12} (h : k.val + j.val = 23) :
    wireBit r k = (decodeResponse r).getLsbD j.val := by
  have hplace : 23 - k.val = j.val := by omega
  rw [decodeResponse_eq_rsp24Sample, rsp24Sample, BitVec.getLsbD_extractLsb', decide_eq_true j.isLt, Bool.true_and,
    Nat.zero_add, wireBit, hplace]

/-- Every sample bit comes from one of the periods 12 to 23, so no other period matters. -/
theorem decodeResponse_eq_of_wireBit_eq {r r' : Frame3}
    (h : ∀ k : Fin 24, 12 ≤ k.val → wireBit r k = wireBit r' k) : decodeResponse r = decodeResponse r' := by
  refine BitVec.eq_of_getLsbD_eq fun j hj => ?_
  have hplace : (23 - j) + j = 23 := by omega
  have hsample := fun f =>
    wireBit_eq_getLsbD_decodeResponse f (k := ⟨23 - j, by omega⟩) (j := ⟨j, hj⟩) hplace
  rw [← hsample r, ← hsample r']
  exact h _ (by dsimp only; omega)

/-- Settles O22: the command by its pattern, and a response by the period `23 - j` of each sample bit `j`. -/
theorem bitPeriodTimeline : Obligations.BitPeriodTimeline := by
  refine ⟨wireBit_packCommand_buildConfig,
    fun r k j hj => wireBit_eq_getLsbD_decodeResponse r (sampleBitIn_eq_some_iff.1 hj),
    fun k => sampleBitIn_eq_none, fun k hk => ?_, fun r r' => decodeResponse_eq_of_wireBit_eq⟩
  exact ⟨⟨23 - k.val, by omega⟩, sampleBitIn_eq_some_iff.2 (by dsimp only; omega), rfl⟩

/-! ## An exchange in flight (R102, R103, R105) -/

/-- During an exchange an operation ends with a value or records the fault: it starts no exchange and ends none. -/
theorem exec_keeps_exchange {i : Instr} {u t : State} {cmd : Frame3} (h : exec i u = .next t)
    (hphase : u.phase = .exchanging cmd) : t.phase = .exchanging cmd ∧ t.xout = u.xout := by
  have hbusy : u.phase ≠ .idle := by simp [hphase]
  obtain ⟨v, rfl⟩ | ⟨frame, -, h⟩ | ⟨c, -, h⟩ := exec_next_cases h
  · exact ⟨hphase, rfl⟩
  · obtain ⟨-, -, ⟨hidle, -⟩ | ⟨other, -, rfl⟩⟩ := execExchange_next_cases h
    · exact absurd hidle hbusy
    · exact ⟨hphase, rfl⟩
  · obtain ⟨-, ⟨hidle, -⟩ | ⟨_, hidle, -⟩ | ⟨_, -, rfl⟩⟩ := execReadChannel_next_cases h
    · exact absurd hidle hbusy
    · exact absurd hidle hbusy
    · exact ⟨hphase, rfl⟩

/-- The answer is logged first, whoever waits for it. -/
theorem State.log_append_event_prefix_answer (s : State) (a : Answer TErr) :
    (s.log ++ [a.event]) <+: (s.answer a).log := by
  cases hw : s.awaiting with
  | caller => rw [State.answer_caller hw]; exact List.prefix_append _ _
  | invoker => rw [State.answer_invoker hw]; exact List.prefix_rfl

/-- Settles O50: an invocation or an early request leaves the exchange in flight, and the answer ends it. -/
theorem exchangeIsNotAborted : Obligations.ExchangeIsNotAborted := by
  intro s t cmd hstep hphase
  obtain ⟨_, i, -, -, hexec⟩ | ⟨-, -, r, rest, -, -, hexec⟩ | ⟨-, -, -, _, a, rest, -, hxin, rfl⟩ :=
    step_next_cases hstep
  · obtain ⟨hkept, hxout⟩ := exec_keeps_exchange hexec hphase
    exact ⟨hxout, .inl hkept⟩
  · obtain ⟨hkept, hxout⟩ := exec_keeps_exchange (i := .readChannel r.channel) hexec hphase
    exact ⟨hxout, .inl hkept⟩
  · exact ⟨State.answer_xout _ a, .inr ⟨State.answer_phase _ a, a, rest, hxin, State.answer_xin _ a,
      State.log_append_event_prefix_answer { s with xin := rest } a⟩⟩

/-- Settles O27: EXCHANGE records the fault during an exchange, and has no step once it is recorded. -/
theorem exchangeDuringExchange : Obligations.ExchangeDuringExchange :=
  fun _ _ _ hcmd hphase => ⟨fun hfault => execExchange_of_exchanging hcmd hfault hphase, execExchange_of_fault hcmd⟩

/-! ## The first steps after reset (R99, R79) -/

/-- In `Idle` without a fault a request of any channel is accepted, and is what is logged next (R74, R75). -/
theorem exists_execReadChannel_logging_request {s : State} (hfault : s.fault = none) (hphase : s.phase = .idle)
    (c : Int) : ∃ t, execReadChannel c s = .next t ∧ (s.log ++ [.req c]) <+: t.log := by
  cases hc : encodeCommand c with
  | none => exact ⟨_, execReadChannel_of_invalid hfault hphase hc, List.prefix_append _ _⟩
  | some cmd => exact ⟨_, execReadChannel_of_valid hfault hphase hc, List.prefix_append _ _⟩

/-- Settles O1: reset is `Idle` without a fault, so its next request is accepted and logged on the empty log. -/
theorem resetState : Obligations.ResetState := by
  refine ⟨rfl, rfl, rfl, fun c early rest answers => ?_, fun answers => step_of_no_request rfl rfl rfl rfl⟩
  obtain ⟨t, hexec, later, hlog⟩ :=
    exists_execReadChannel_logging_request (s := { State.reset with req := rest, xin := answers }) rfl rfl c
  refine ⟨t, (step_of_request rfl rfl rfl rfl).trans hexec, ?_⟩
  rw [← hlog]
  rfl

end Sys2Proof.Machine
end

section
/-! PROOFS. The frame of the five pure operations (40_command_encode.md opening, 41_response_decode.md opening). -/

namespace Sys2Proof.Machine

/-- Settles O15: every operation but EXCHANGE and READ_CHANNEL ends with a value that does not depend on the state,
and ending with a value appends it to the values returned and changes nothing else. -/
theorem pureOperationsFrame : Obligations.PureOperationsFrame := by
  intro i s hexchange hread
  obtain ⟨v, hends⟩ | ⟨cmd, hi⟩ | ⟨c, hi⟩ := exec_pure_or_transaction i
  · exact ⟨v, hends s⟩
  · exact absurd hi (hexchange cmd)
  · exact absurd hi (hread c)

end Sys2Proof.Machine
end
